-- ==== Sys2Proof/Word.lean ====
section
/-! DEFINITION. Words and bytes: what crosses a port and what a cell of table memory holds. -/

namespace Sys2Proof

/-- A byte of a frame. -/
abbrev Byte := BitVec 8

/-- A 16-bit unsigned quantity (spec/00_scope.md, Terms). -/
abbrev Word := BitVec 16

/-- A stored word of table memory: bits 15 to 0 the value, bit 16 the parity bit (R1, R2). -/
abbrev Stored := BitVec 17

end Sys2Proof
end

