-- ==== Sys2Proof/Config.lean ====
section
/-! DEFINITION. Constants of the part, and the values the spec leaves open as uninterpreted constants. -/

namespace Sys2Proof.Config

/-- R1: pages of table memory. -/
def pageCount : Nat := 128

/-- R1: words of a page. -/
def pageWords : Nat := 256

/-- R145: entries of an event queue. -/
def eventCapacity : Nat := 8

/-- R63: contexts of a save stack. -/
def stackCapacity : Nat := 4

/-- R115: entries of the image store queue. -/
def queueCapacity : Nat := 4

/-- R19, R20: the highest version number. -/
def maxVersion : Nat := 65535

/-- R117, R126: the highest sequence number of a slot. -/
def maxSequence : Nat := 4294967295

/-- R133: the shortest and the longest lease, in units of 10 ms. -/
def minLease : Nat := 10
/-- R133: the longest lease. -/
def maxLease : Nat := 6000

/-- R156, R159: the supply levels in millivolts at which a reset ends and the supply state becomes OK. -/
def resetRisingMillivolts : Nat := 2650
/-- R159: the WARN level, rising. -/
def warnRisingMillivolts : Nat := 2950

/-- FREE VALUE (log 6): what a word of table memory that nothing has written since the last part
reset holds (R4: undefined), for each count of part resets and each address. -/
opaque undefinedWord : Nat → Nat → Stored

/-- FREE VALUE (log 11): the status code that an event record carries for the result CHECK of a
DAMAGE event (R145, R36): section 11.5 gives that result no code. -/
opaque checkResultCode : Byte

/-- FREE VALUE (log 23): what a word of a slot's data area that was not programmed since the slot's
last erase reads as, for each offset. -/
opaque unprogrammedWord : Nat → Word

end Sys2Proof.Config
end

