-- ==== Sys2Proof/Syntax.lean ====
section
/-! DEFINITION. The commands: one constructor of Instr for each row of spec/opcode_table.json, and
the requests a frame can carry (section 11.5). -/

namespace Sys2Proof

/-- Host ports P0 to P3. -/
abbrev Port := Fin 4

/-- Table ids 0 to 31. -/
abbrev TableId := Fin 32

/-- Cursor slots C0 to C3 of a port. -/
abbrev SlotId := Fin 4

/-- The two moments of a frame that meets PENDING (R172). -/
inductive PendingEdge
  /-- The chip-select fall while a request is in progress. -/
  | fall
  /-- The chip-select rise that closes that frame. -/
  | rise
deriving DecidableEq, Repr

/-- A request with its operands as the wire gives them: the table of section 11.5. Operands are
raw bytes and words; the owning block checks their ranges (R174). -/
inductive Request
  | nop
  | status
  | openSession (lease : Word)
  | close
  | mask (mask : Byte)
  | events (n : Byte)
  | tableInfo (table : Byte)
  | bind (slot table : Byte) (offset : Word) (mode stride follow : Byte)
  | unbind (slot : Byte)
  | seek (slot : Byte) (offset : Word)
  | fetch (slot count : Byte)
  | peek (slot : Byte) (offset : Word) (count : Byte)
  | resync (slot : Byte)
  | cursorInfo (slot : Byte)
  | save (slot : Byte)
  | restore (slot : Byte)
  | discard
  | stage (table : Byte) (length : Word) (fill : Byte) (value : Word)
  | write (table : Byte) (offset : Word) (words : List Word)
  | commit (table hold : Byte)
  | abort (table : Byte)
  | persist (table : Byte)
  | maintEnter
  | charterRead (entry : Byte)
  | charterWrite (entry f0 f1 f2 f3 f4 : Byte)
  | charterCommit
  | maintExit
deriving DecidableEq, Repr

/-- The commands, one constructor for each row of spec/opcode_table.json. A request's row names the
port whose request in progress it carries out, and that request's operands. -/
inductive Instr
  /-- FRAME (R169): the chip-select rise that closes a frame; `bits` are the data-in samples of its
  rising clock edges, oldest first (R168). -/
  | frame (p : Port) (bits : List Bool)
  /-- PENDING (R172): the fall or the rise of a frame that opens while a request is in progress. -/
  | pending (p : Port) (edge : PendingEdge)
  /-- PORT_BREAK (R173). -/
  | portBreak (p : Port)
  | nop (p : Port)
  | status (p : Port)
  | openSession (p : Port) (lease : Word)
  | close (p : Port)
  | mask (p : Port) (mask : Byte)
  | events (p : Port) (n : Byte)
  | tableInfo (p : Port) (table : Byte)
  | bind (p : Port) (slot table : Byte) (offset : Word) (mode stride follow : Byte)
  | unbind (p : Port) (slot : Byte)
  | seek (p : Port) (slot : Byte) (offset : Word)
  /-- FETCH (R53): `words` is how many words this command reads at most before steps of other blocks may
  come between two words (R55, log 35); with 0 it only fixes the version. -/
  | fetch (p : Port) (slot count : Byte) (words : Nat := 16)
  /-- PEEK (R56): `words` as for FETCH. -/
  | peek (p : Port) (slot : Byte) (offset : Word) (count : Byte) (words : Nat := 16)
  | resync (p : Port) (slot : Byte)
  | cursorInfo (p : Port) (slot : Byte)
  | save (p : Port) (slot : Byte)
  | restore (p : Port) (slot : Byte)
  | discard (p : Port)
  | stage (p : Port) (table : Byte) (length : Word) (fill : Byte) (value : Word)
  | write (p : Port) (table : Byte) (offset : Word) (words : List Word)
  | commit (p : Port) (table hold : Byte)
  | abort (p : Port) (table : Byte)
  | persist (p : Port) (table : Byte)
  | maintEnter (p : Port)
  | charterRead (p : Port) (entry : Byte)
  | charterWrite (p : Port) (entry f0 f1 f2 f3 f4 : Byte)
  | charterCommit (p : Port)
  | maintExit (p : Port)
  /-- LEASE_EXPIRY (R137): the lease timer of port p runs out. -/
  | leaseExpiry (p : Port)
  | sessionEndEventUnit (p : Port)
  /-- SESSION_END_CURSOR_FILE (R61): `order` is the order in which the slots are unbound; slots it
  does not name follow in ascending order. -/
  | sessionEndCursorFile (p : Port) (order : List SlotId)
  /-- SESSION_END_SAVE_STACKS (R73): `order` names entries by their place from the top (0 the top),
  in the order in which they are unpinned; entries it does not name follow from the top down. -/
  | sessionEndSaveStacks (p : Port) (order : List Nat)
  | sessionEndStaging (p : Port)
  | sessionEndImageStore (p : Port)
  /-- MAINTENANCE_SESSION_END (R166): of the maintenance session on port p. -/
  | maintenanceSessionEnd (p : Port)
  /-- PARITY_REPORT (R34): table, version number, logical page. -/
  | parityReport (t : TableId) (version page : Nat)
  /-- CHECK_REPORT (R35): table, version number. -/
  | checkReport (t : TableId) (version : Nat)
  | fillWord
  | summingWord
  | retirementNotice (t : TableId)
  | holdDeadline (t : TableId)
  | persistStart
  /-- PERSIST_ERASE (R118, R119): `verified` says whether the erase passed its verify. -/
  | persistErase (verified : Bool)
  /-- PERSIST_PROGRAM_WORD (R118, R119): `verified` says whether the program step passed its verify. -/
  | persistProgramWord (verified : Bool)
  /-- PERSIST_MARKING (R118, R119): `verified` says whether header and marker passed their verify. -/
  | persistMarking (verified : Bool)
  | storeReadStart
  | slotVerifyRead
  /-- STORE_READ_WORD (R125): `disturbed` is the word the copy read returns where it is not the
  stored one. -/
  | storeReadWord (disturbed : Option Word)
  | charterWriteStart
  /-- CHARTER_WRITE_ERASE (R126): `verified` as for PERSIST_ERASE. -/
  | charterWriteErase (verified : Bool)
  /-- CHARTER_WRITE_COMPLETION (R126): `verified` says whether record, header and marker passed. -/
  | charterWriteCompletion (verified : Bool)
  | charterWriteResult
  | powerOn
  | pinReset
  | supplyReset
  /-- RESET_RELEASE (R156, R159): RESET_N is high and the supply stands at this level. -/
  | resetRelease (millivolts : Nat)
  | charterSelection
  /-- LOAD_TABLE (R128): `disturbed` lists the offsets at which the copy read returns another word
  than the stored one, with that word. -/
  | loadTable (disturbed : List (Nat × Word))
  | supplyStateLow
  | supplyStateOk
  | scrubPeriodExpiry
  | scrubWord
  /-- FRAME_OPEN (R168): a chip-select fall while no request is in progress. -/
  | frameOpen (p : Port)
  | discardingRise (p : Port)
deriving DecidableEq, Repr

end Sys2Proof
end

