-- ==== Sys2Proof/WellFormed.lean ====
section
/-! DEFINITION. Which commands are well formed: the operands a row can carry. Operands of requests
are raw bytes, so every value of them is well formed but for WRITE's word count. -/

namespace Sys2Proof

/-- A version number is 1 to 65535 (R19). -/
def wfVersion (n : Nat) : Bool := decide (1 ≤ n) && decide (n ≤ Config.maxVersion)

/-- A request a frame can carry: WRITE has 1 to 16 words (R86, section 11.5). -/
def Request.wellFormed : Request → Bool
  | .write _ _ words => decide (1 ≤ words.length) && decide (words.length ≤ 16)
  | .nop | .status | .openSession _ | .close | .mask _ | .events _ | .tableInfo _
  | .bind _ _ _ _ _ _ | .unbind _ | .seek _ _ | .fetch _ _ | .peek _ _ _ | .resync _
  | .cursorInfo _ | .save _ | .restore _ | .discard | .stage _ _ _ _ | .commit _ _ | .abort _
  | .persist _ | .maintEnter | .charterRead _ | .charterWrite _ _ _ _ _ _ | .charterCommit
  | .maintExit => true

/-- Well-formed commands. -/
def Instr.wellFormed : Instr → Bool
  | .write _ _ _ words => decide (1 ≤ words.length) && decide (words.length ≤ 16)
  | .sessionEndSaveStacks _ order => order.all (· < Config.stackCapacity)
  | .parityReport _ version page => wfVersion version && decide (page < 16)
  | .checkReport _ version => wfVersion version
  | .resetRelease millivolts => decide (Config.resetRisingMillivolts < millivolts)
  | .loadTable disturbed => disturbed.all (fun d => decide (d.1 < 4096))
  | .frame _ _ | .pending _ _ | .portBreak _ | .nop _ | .status _ | .openSession _ _ | .close _
  | .mask _ _ | .events _ _ | .tableInfo _ _ | .bind _ _ _ _ _ _ _ | .unbind _ _ | .seek _ _ _
  | .fetch _ _ _ _ | .peek _ _ _ _ _ | .resync _ _ | .cursorInfo _ _ | .save _ _ | .restore _ _
  | .discard _ | .stage _ _ _ _ _ | .commit _ _ _ | .abort _ _ | .persist _ _ | .maintEnter _
  | .charterRead _ _ | .charterWrite _ _ _ _ _ _ _ | .charterCommit _ | .maintExit _
  | .leaseExpiry _ | .sessionEndEventUnit _ | .sessionEndCursorFile _ _ | .sessionEndStaging _
  | .sessionEndImageStore _ | .maintenanceSessionEnd _ | .fillWord | .summingWord
  | .retirementNotice _ | .holdDeadline _ | .persistStart | .persistErase _
  | .persistProgramWord _ | .persistMarking _ | .storeReadStart | .slotVerifyRead
  | .storeReadWord _ | .charterWriteStart | .charterWriteErase _ | .charterWriteCompletion _
  | .charterWriteResult | .powerOn | .pinReset | .supplyReset | .charterSelection
  | .supplyStateLow | .supplyStateOk | .scrubPeriodExpiry | .scrubWord | .frameOpen _
  | .discardingRise _ => true

/-- The request a request's row carries out, and its port; none for the other rows. -/
def Instr.asRequest : Instr → Option (Port × Request)
  | .nop p => some (p, .nop)
  | .status p => some (p, .status)
  | .openSession p lease => some (p, .openSession lease)
  | .close p => some (p, .close)
  | .mask p m => some (p, .mask m)
  | .events p n => some (p, .events n)
  | .tableInfo p table => some (p, .tableInfo table)
  | .bind p slot table offset mode stride follow =>
    some (p, .bind slot table offset mode stride follow)
  | .unbind p slot => some (p, .unbind slot)
  | .seek p slot offset => some (p, .seek slot offset)
  | .fetch p slot count _ => some (p, .fetch slot count)
  | .peek p slot offset count _ => some (p, .peek slot offset count)
  | .resync p slot => some (p, .resync slot)
  | .cursorInfo p slot => some (p, .cursorInfo slot)
  | .save p slot => some (p, .save slot)
  | .restore p slot => some (p, .restore slot)
  | .discard p => some (p, .discard)
  | .stage p table length fill value => some (p, .stage table length fill value)
  | .write p table offset words => some (p, .write table offset words)
  | .commit p table hold => some (p, .commit table hold)
  | .abort p table => some (p, .abort table)
  | .persist p table => some (p, .persist table)
  | .maintEnter p => some (p, .maintEnter)
  | .charterRead p entry => some (p, .charterRead entry)
  | .charterWrite p entry f0 f1 f2 f3 f4 => some (p, .charterWrite entry f0 f1 f2 f3 f4)
  | .charterCommit p => some (p, .charterCommit)
  | .maintExit p => some (p, .maintExit)
  | .frame _ _ | .pending _ _ | .portBreak _ | .leaseExpiry _ | .sessionEndEventUnit _
  | .sessionEndCursorFile _ _ | .sessionEndSaveStacks _ _ | .sessionEndStaging _
  | .sessionEndImageStore _ | .maintenanceSessionEnd _ | .parityReport _ _ _ | .checkReport _ _
  | .fillWord | .summingWord | .retirementNotice _ | .holdDeadline _ | .persistStart
  | .persistErase _ | .persistProgramWord _ | .persistMarking _ | .storeReadStart
  | .slotVerifyRead | .storeReadWord _ | .charterWriteStart | .charterWriteErase _
  | .charterWriteCompletion _ | .charterWriteResult | .powerOn | .pinReset | .supplyReset
  | .resetRelease _ | .charterSelection | .loadTable _ | .supplyStateLow | .supplyStateOk
  | .scrubPeriodExpiry | .scrubWord | .frameOpen _ | .discardingRise _ => none

/-- Whether a request is a cursor, stack, staging or PERSIST request (R162). -/
def Request.usesTables : Request → Bool
  | .bind _ _ _ _ _ _ | .unbind _ | .seek _ _ | .fetch _ _ | .peek _ _ _ | .resync _
  | .cursorInfo _ | .save _ | .restore _ | .discard | .stage _ _ _ _ | .write _ _ _ | .commit _ _
  | .abort _ | .persist _ => true
  | .nop | .status | .openSession _ | .close | .mask _ | .events _ | .tableInfo _ | .maintEnter
  | .charterRead _ | .charterWrite _ _ _ _ _ _ | .charterCommit | .maintExit => false

end Sys2Proof
end

