-- ==== Sys2Proof/Decode.lean ====
section
/-! DEFINITION. Words that spell commands (none do), and the frames of the wire: bytes from data-in
samples (R168), CRC-8 (R170), requests from code and operand bytes (section 11.5), the judgement of a
frame (R169), and the encoder of a request frame. -/

namespace Sys2Proof

/-- No row of spec/opcode_table.json gives bits, so no word spells a command. -/
def decodeTableWord (_nbits _w : Nat) : Option Instr := none

/-! ## Bytes and words of the wire -/

/-- A byte from its eight samples, most significant bit first (R168). -/
def byteOfBits (samples : List Bool) : Byte :=
  samples.foldl (fun acc b => (acc <<< 1) ||| (if b then 1 else 0)) 0

/-- The samples of a byte, most significant bit first (R168). -/
def bitsOfByte (x : Byte) : List Bool :=
  [7, 6, 5, 4, 3, 2, 1, 0].map (fun i => x.getLsbD i)

/-- The whole bytes of a frame's samples; a last byte of fewer than eight edges is discarded (R168). -/
def bytesOfBits : List Bool → List Byte
  | b7 :: b6 :: b5 :: b4 :: b3 :: b2 :: b1 :: b0 :: rest =>
    byteOfBits [b7, b6, b5, b4, b3, b2, b1, b0] :: bytesOfBits rest
  | _ => []

/-- The samples that carry these bytes. -/
def bitsOfBytes (bytes : List Byte) : List Bool := bytes.flatMap bitsOfByte

/-- A word from two bytes, high byte first (R174). -/
def wordOfBytes (high low : Byte) : Word := high.append low

/-- The high byte of a word. -/
def highByte (w : Word) : Byte := w.extractLsb' 8 8

/-- The low byte of a word. -/
def lowByte (w : Word) : Byte := w.extractLsb' 0 8

/-- A word as it goes on the wire, high byte first (R174). -/
def bytesOfWord (w : Word) : List Byte := [highByte w, lowByte w]

/-- Operand words of WRITE; none where the bytes do not make whole words. -/
def wordsOfBytes : List Byte → Option (List Word)
  | [] => some []
  | [_] => none
  | high :: low :: rest =>
    match wordsOfBytes rest with
    | some ws => some (wordOfBytes high low :: ws)
    | none => none

/-! ## CRC-8 (R170) -/

/-- One bit of the CRC-8: generator x^8 + x^2 + x + 1. -/
def crc8Bit (reg : Byte) (b : Bool) : Byte :=
  if b ^^ reg.msb then (reg <<< 1) ^^^ 0x07 else reg <<< 1

/-- One byte of the CRC-8, most significant bit first. -/
def crc8Byte (reg x : Byte) : Byte := (bitsOfByte x).foldl crc8Bit reg

/-- The CRC-8 of a sequence of bytes; the register starts at 0x00. -/
def crc8 (bytes : List Byte) : Byte := bytes.foldl crc8Byte 0

/-! ## Requests (section 11.5) -/

/-- WRITE's operands: table, offset and 1 to 16 words (R86). -/
def decodeWrite (table high low : Byte) (rest : List Byte) : Option Request :=
  match wordsOfBytes rest with
  | some ws =>
    if 1 ≤ ws.length ∧ ws.length ≤ 16 then some (.write table (wordOfBytes high low) ws) else none
  | none => none

/-- The request a code and its operand bytes stand for; none for an unknown code and for an operand
length the table does not allow for the code. -/
def decodeRequest (code : Byte) (operands : List Byte) : Option Request :=
  if code = 0x01 then
    match operands with | [] => some .nop | _ => none
  else if code = 0x02 then
    match operands with | [] => some .status | _ => none
  else if code = 0x03 then
    match operands with | [h, l] => some (.openSession (wordOfBytes h l)) | _ => none
  else if code = 0x04 then
    match operands with | [] => some .close | _ => none
  else if code = 0x05 then
    match operands with | [m] => some (.mask m) | _ => none
  else if code = 0x06 then
    match operands with | [n] => some (.events n) | _ => none
  else if code = 0x10 then
    match operands with | [t] => some (.tableInfo t) | _ => none
  else if code = 0x20 then
    match operands with
    | [s, t, h, l, m, d, f] => some (.bind s t (wordOfBytes h l) m d f)
    | _ => none
  else if code = 0x21 then
    match operands with | [s] => some (.unbind s) | _ => none
  else if code = 0x22 then
    match operands with | [s, h, l] => some (.seek s (wordOfBytes h l)) | _ => none
  else if code = 0x23 then
    match operands with | [s, c] => some (.fetch s c) | _ => none
  else if code = 0x24 then
    match operands with | [s, h, l, c] => some (.peek s (wordOfBytes h l) c) | _ => none
  else if code = 0x25 then
    match operands with | [s] => some (.resync s) | _ => none
  else if code = 0x26 then
    match operands with | [s] => some (.cursorInfo s) | _ => none
  else if code = 0x28 then
    match operands with | [s] => some (.save s) | _ => none
  else if code = 0x29 then
    match operands with | [s] => some (.restore s) | _ => none
  else if code = 0x2A then
    match operands with | [] => some .discard | _ => none
  else if code = 0x30 then
    match operands with
    | [t, h, l, k, vh, vl] => some (.stage t (wordOfBytes h l) k (wordOfBytes vh vl))
    | _ => none
  else if code = 0x31 then
    match operands with | t :: h :: l :: rest => decodeWrite t h l rest | _ => none
  else if code = 0x32 then
    match operands with | [t, d] => some (.commit t d) | _ => none
  else if code = 0x33 then
    match operands with | [t] => some (.abort t) | _ => none
  else if code = 0x38 then
    match operands with | [t] => some (.persist t) | _ => none
  else if code = 0x40 then
    match operands with | [] => some .maintEnter | _ => none
  else if code = 0x41 then
    match operands with | [e] => some (.charterRead e) | _ => none
  else if code = 0x42 then
    match operands with
    | [e, f0, f1, f2, f3, f4] => some (.charterWrite e f0 f1 f2 f3 f4)
    | _ => none
  else if code = 0x43 then
    match operands with | [] => some .charterCommit | _ => none
  else if code = 0x44 then
    match operands with | [] => some .maintExit | _ => none
  else none

/-- The code of a request. -/
def Request.code : Request → Byte
  | .nop => 0x01
  | .status => 0x02
  | .openSession _ => 0x03
  | .close => 0x04
  | .mask _ => 0x05
  | .events _ => 0x06
  | .tableInfo _ => 0x10
  | .bind _ _ _ _ _ _ => 0x20
  | .unbind _ => 0x21
  | .seek _ _ => 0x22
  | .fetch _ _ => 0x23
  | .peek _ _ _ => 0x24
  | .resync _ => 0x25
  | .cursorInfo _ => 0x26
  | .save _ => 0x28
  | .restore _ => 0x29
  | .discard => 0x2A
  | .stage _ _ _ _ => 0x30
  | .write _ _ _ => 0x31
  | .commit _ _ => 0x32
  | .abort _ => 0x33
  | .persist _ => 0x38
  | .maintEnter => 0x40
  | .charterRead _ => 0x41
  | .charterWrite _ _ _ _ _ _ => 0x42
  | .charterCommit => 0x43
  | .maintExit => 0x44

/-- The operand bytes of a request. -/
def Request.operands : Request → List Byte
  | .nop | .status | .close | .discard | .maintEnter | .charterCommit | .maintExit => []
  | .openSession lease => bytesOfWord lease
  | .mask m => [m]
  | .events n => [n]
  | .tableInfo t => [t]
  | .bind s t o m d f => [s, t] ++ bytesOfWord o ++ [m, d, f]
  | .unbind s => [s]
  | .seek s o => [s] ++ bytesOfWord o
  | .fetch s c => [s, c]
  | .peek s o c => [s] ++ bytesOfWord o ++ [c]
  | .resync s => [s]
  | .cursorInfo s => [s]
  | .save s => [s]
  | .restore s => [s]
  | .stage t len k v => [t] ++ bytesOfWord len ++ [k] ++ bytesOfWord v
  | .write t o ws => [t] ++ bytesOfWord o ++ ws.flatMap bytesOfWord
  | .commit t d => [t, d]
  | .abort t => [t]
  | .persist t => [t]
  | .charterRead e => [e]
  | .charterWrite e f0 f1 f2 f3 f4 => [e, f0, f1, f2, f3, f4]

/-- The bytes of a request frame before its CRC: code, tag, operand length, operands. -/
def Request.body (r : Request) (tag : Byte) : List Byte :=
  [r.code, tag, BitVec.ofNat 8 r.operands.length] ++ r.operands

/-- The whole request frame (section 11.5). -/
def Request.frame (r : Request) (tag : Byte) : List Byte :=
  r.body tag ++ [crc8 (r.body tag)]

/-! ## The judgement of a frame (R169) -/

/-- What the port engine makes of a frame at its rise. -/
inductive FrameVerdict
  /-- No whole byte: nothing changes. -/
  | empty
  /-- Not taken: a FRAME_ERROR response with this tag. -/
  | error (tag : Byte)
  /-- Taken, with an unknown code or a length the code does not allow. -/
  | badRequest (tag : Byte)
  /-- Taken, and handed to the session unit's gate. -/
  | taken (tag : Byte) (request : Request)
deriving DecidableEq, Repr

/-- The table of R169; byte 2 is the operand length L, at most 40. -/
def judgeFrame (bytes : List Byte) : FrameVerdict :=
  match bytes with
  | [] => .empty
  | [_] => .error 0
  | [_, tag] => .error tag
  | code :: tag :: len :: rest =>
    if 40 < len.toNat then .error tag
    else if rest.length ≤ len.toNat then .error tag
    else if crc8 ([code, tag, len] ++ rest.take len.toNat) = rest.getD len.toNat 0 then
      match decodeRequest code (rest.take len.toNat) with
      | some request => .taken tag request
      | none => .badRequest tag
    else .error tag

end Sys2Proof
end

