-- ==== Sys2Proof/Machine/State.lean ====
section
/-! DEFINITION. The state of the part: every piece of state the spec names, as plain data, block by
block; the messages between blocks that are taken in a later step; and the state after power-on. -/

namespace Sys2Proof.Machine

/-! ## Names of the spec -/

/-- Status names (section 11.5, "Status codes"); `check` is the result CHECK of a DAMAGE event,
which has no code there. -/
inductive Status
  | ok | accepted | pending | busy | frameError | badRequest | range | notReady | maintenance
  | noSession | alreadyOpen | denied | undefined | empty | unbound | stackFull | stackEmpty
  | stageExists | notStaged | noSpace | queueFull | supplyLow | notPersistent | damaged
  | sessionsOpen | imageBusy | noCharter | retireBusy | parity | noImage | badImage | tooLong
  | writeFailed | check
deriving DecidableEq, Repr

/-- Advance modes of a cursor (R40). -/
inductive Mode | page | linear | ring
deriving DecidableEq, Repr

/-- Departure records (R131). -/
inductive Departure
  | powerOn | closed | leaseExpired | portBreak | pinReset | supplyReset | charterRestart
deriving DecidableEq, Repr

/-- Part states (R155). -/
inductive PartState | reset | loading | service | maintenance | unchartered
deriving DecidableEq, Repr

/-- Supply states (R159). -/
inductive SupplyState | ok | low
deriving DecidableEq, Repr

/-- The four kinds of part reset (R14). -/
inductive ResetKind | powerOn | pin | supply | charterRestart
deriving DecidableEq, Repr

/-! ## Cursor file and save stacks (chapters 3 and 4) -/

/-- A bound cursor context (R40). -/
structure Binding where
  table : TableId
  version : Nat
  offset : Nat
  mode : Mode
  stride : Int
  follow : Bool
deriving DecidableEq, Repr

/-- A cursor context: unbound (none) or bound (R40, R63). -/
abbrev Context := Option Binding

/-! ## Port engines (chapter 11) -/

/-- Frame receive state (R168, R173). -/
inductive RxState | idle | receiving | discarding
deriving DecidableEq, Repr

/-- A response: tag, status, flags byte and 0 to 40 data bytes (R171); its CRC-8 is computed. -/
structure Response where
  tag : Byte
  status : Status
  flags : Byte
  data : List Byte
deriving DecidableEq, Repr

/-- Which offsets a read in turns walks: a FETCH those of a slot, a PEEK those from its operand on. -/
inductive Walk
  | fetch (c : SlotId)
  | peek (start : Nat)
deriving DecidableEq, Repr

/-- A FETCH or PEEK between two of its words: the version fixed at its first step (R55) with what its
flags keep of that moment (R54), the words read, and how many are still to be read. -/
structure ReadJob where
  walk : Walk
  table : TableId
  number : Nat
  length : Nat
  pages : List Nat
  stale : Bool
  rebound : Bool
  words : List Word
  left : Nat
deriving DecidableEq, Repr

/-- A WRITE between two of its words (R86): the STAGED version's number and pages, the next offset, the
words still to be written, and how many words it has in all. -/
structure WriteJob where
  number : Nat
  pages : List Nat
  offset : Nat
  words : List Word
  count : Nat
deriving DecidableEq, Repr

/-- Where a request in progress stands (log 35): at its start, not yet at its gate; past its gate and held
until its block can begin it (R28, R81); a BIND whose pin is placed, with the slot
and the context it is to take, and the length and the DAMAGED flag that the directory returned (R44); a
FETCH or PEEK (R55), or a WRITE (R15), before its next word. -/
inductive Turn
  | start
  | held
  | pinned (c : SlotId) (new : Binding) (length : Nat) (damaged : Bool)
  | reading (job : ReadJob)
  | writing (job : WriteJob)
deriving DecidableEq, Repr

/-- The taken request that is being carried out, with its tag (R169, R172), and where it stands. -/
structure InProgress where
  tag : Byte
  request : Request
  turn : Turn := .start
deriving DecidableEq, Repr

/-- One port engine. `shiftOut` is the response the open frame shifts out (none: data out is high
impedance); `metPending` says that the open frame met PENDING; `breakTimer` that the port-break
measurement of the chip-select low period runs. -/
structure PortEngine where
  csLow : Bool
  rx : RxState
  metPending : Bool
  shiftOut : Option Response
  buffer : Response
  inProgress : Option InProgress
  breakTimer : Bool
deriving DecidableEq, Repr

/-! ## Session unit and event unit (chapters 8 and 9) -/

/-- One port's session fields (R131). `leaseTimer` is none when stopped, and otherwise the time it
was last started with, in units of 10 ms. -/
structure Session where
  isOpen : Bool
  number : Nat
  leasePeriod : Nat
  leaseTimer : Option Nat
  departure : Departure
  mask : Byte
deriving DecidableEq, Repr

/-- The blocks to which the session unit hands a session end (R140). -/
inductive EndBlock
  | eventUnit | cursorFile | saveStacks | stagingEngine | imageStore | partController
deriving DecidableEq, Repr

/-- Event kinds (R145). -/
inductive EventKind
  | newVersion | commitDone | fillDone | retired | damage | persistDone | charterDone | supply
deriving DecidableEq, Repr

/-- An event record (R145). -/
structure Event where
  kind : EventKind
  table : Option TableId
  version : Nat
  result : Status
  extra : Nat
deriving DecidableEq, Repr

/-- One port's event queue, oldest first, and its overrun flag (R145). -/
structure EventQueue where
  entries : List Event
  overrun : Bool
deriving DecidableEq, Repr

/-! ## Table memory (chapter 1) -/

/-- Table memory: stored words by address (page * 256 + index), addresses strictly rising. An
address not listed holds no defined value (R4). -/
abbrev Memory := List (Nat × Stored)

/-- The requestors in the ring of the memory arbiter (R15). -/
inductive Requestor
  | portEngine (p : Port)
  | staging
  | imageStore
deriving DecidableEq, Repr

/-! ## Table directory (chapter 2) -/

/-- The DAMAGED flag with its first cause (R19). -/
inductive Damage | clear | parity | check
deriving DecidableEq, Repr

/-- A version record's fields that every role has (R19). `faulty` is the set of faulty logical
pages in ascending order. -/
structure Version where
  number : Nat
  length : Nat
  pages : List Nat
  check : Option Word
  pins : Nat
  damage : Damage
  faulty : List Nat
deriving DecidableEq, Repr

/-- Fill kinds (R19): VALUE with its value, COPY with the source version number. -/
inductive FillKind
  | zero
  | value (w : Word)
  | copy (source : Nat)
  | store
deriving DecidableEq, Repr

/-- Staged sub-states (R19) with what is present in each: FILLING the fill kind, SUMMING the hold
limit of the commit (R87), HELD the hold timer, as the time it was started with (R89). -/
inductive SubState
  | filling (kind : FillKind)
  | opened
  | summing (holdLimit : Nat)
  | held (holdTime : Nat)
deriving DecidableEq, Repr

/-- A STAGED version: the version record, its sub-state and its issuing session number (R19). -/
structure Staged where
  version : Version
  sub : SubState
  session : Nat
deriving DecidableEq, Repr

/-- Load results (R17). -/
inductive LoadResult | loaded | notPersistent | noImage | badImage | noSpace | tooLong
deriving DecidableEq, Repr

/-- The fields of a table entry of the charter (R160), copied into the table record (R17). Bit i of
`readers` stands for port Pi. -/
structure TableEntry where
  defined : Bool
  maxPages : Nat
  writer : Option Port
  readers : BitVec 4
  persistent : Bool
deriving DecidableEq, Repr

/-- A table record (R17). -/
structure TableRecord where
  entry : TableEntry
  current : Option Version
  staged : Option Staged
  retiring : Option Version
  nextVersion : Nat
  loadResult : LoadResult
deriving DecidableEq, Repr

/-- A damage report the scrubber has sent to the directory (R107, R108). -/
inductive Report
  | parity (t : TableId) (version page : Nat)
  | check (t : TableId) (version : Nat)
deriving DecidableEq, Repr

/-! ## Staging engine and scrubber (chapters 5 and 6) -/

/-- How far the head of the staging work list has gone: next offset to fill or sum, running check
value of SUMMING, and for a COPY fill the source version it has pinned (R75); `copied` is the source
word that a COPY fill has read and not yet written (R83). -/
structure HeadWork where
  offset : Nat
  check : Word
  source : Option Nat
  copied : Option Word := none
deriving DecidableEq, Repr

/-- The version a scrub visit rereads, and how far it has gone (R103). -/
structure Visit where
  table : TableId
  number : Nat
  length : Nat
  pages : List Nat
  check : Option Word
  offset : Nat
  register : Word
deriving DecidableEq, Repr

/-- The scrubber (R103). `timer` is none when stopped, and otherwise the scrub period in seconds. -/
structure Scrubber where
  running : Bool
  due : Bool
  nextId : TableId
  visit : Option Visit
  timer : Option Nat
deriving DecidableEq, Repr

/-! ## Charter (chapter 10) -/

/-- The fields of a port entry of the charter (R160). -/
structure PortEntry where
  enabled : Bool
  maintenance : Bool
  maxLease : Nat
deriving DecidableEq, Repr

/-- A charter record (R160). -/
structure Charter where
  sequence : Nat
  scrubPeriod : Nat
  tables : Vector TableEntry 32
  ports : Vector PortEntry 4
deriving DecidableEq, Repr

/-! ## Image store and its controller (chapter 7) -/

/-- The two slots of a pair (R112). -/
inductive SlotName | a | b
deriving DecidableEq, Repr

/-- Header of a table slot (R113). -/
structure TableHeader where
  table : TableId
  sequence : Nat
  version : Nat
  length : Nat
  check : Word
deriving DecidableEq, Repr

/-- A table slot: the words programmed since its last erase from offset 0 upward, header, and
whether the completion marker is present (R112, R113). -/
structure TableSlot where
  data : List Word
  header : Option TableHeader
  marker : Bool
deriving DecidableEq, Repr

/-- A pair of table slots (R112). -/
structure TablePair where
  a : TableSlot
  b : TableSlot
deriving DecidableEq, Repr

/-- Header of a charter slot (R113). -/
structure CharterHeader where
  sequence : Nat
  check : Word
deriving DecidableEq, Repr

/-- A charter slot (R112, R113). -/
structure CharterSlot where
  record : Option Charter
  header : Option CharterHeader
  marker : Bool
deriving DecidableEq, Repr

/-- The pair of charter slots (R112). -/
structure CharterPair where
  a : CharterSlot
  b : CharterSlot
deriving DecidableEq, Repr

/-- The operations of the image store queue (section 7.2). -/
inductive QueueOp
  | persist (t : TableId)
  | storeRead (t : TableId)
  | charterWrite (record : Charter)
deriving DecidableEq, Repr

/-- An entry of the image store queue (R115). -/
structure QueueEntry where
  op : QueueOp
  port : Port
  session : Nat
deriving DecidableEq, Repr

/-- What a persist in flight works with (R117): the pinned version as the directory returned it,
the target slot and the new sequence number. -/
structure PersistJob where
  table : TableId
  number : Nat
  length : Nat
  pages : List Nat
  check : Option Word
  target : SlotName
  sequence : Nat
deriving DecidableEq, Repr

/-- What a charter write in flight works with (R126). -/
structure CharterJob where
  record : Charter
  target : SlotName
  sequence : Nat
deriving DecidableEq, Repr

/-- What the copy read of a STORE read works with (R125). -/
structure StoreReadJob where
  table : TableId
  slot : SlotName
  header : TableHeader
  offset : Nat
  register : Word
deriving DecidableEq, Repr

/-- The step of the operation in flight (R115). SELECTING holds the valid slots not yet verified,
the one to verify next first (R114); a charter write's MARKING is part of its completion. -/
inductive ImageWork
  | idle
  | persistErasing (job : PersistJob)
  | persistProgramming (job : PersistJob) (offset : Nat)
  | persistMarking (job : PersistJob)
  | selecting (t : TableId) (candidates : List SlotName)
  | reading (job : StoreReadJob)
  | charterErasing (job : CharterJob)
  | charterProgramming (job : CharterJob)
deriving DecidableEq, Repr

/-- A charter write result handed to the part controller (R126), with the port and session number
of its queue entry (R164). The new sequence number is none where the sequence count is exhausted. -/
structure CharterResult where
  ok : Bool
  sequence : Option Nat
  port : Port
  session : Nat
deriving DecidableEq, Repr

/-! ## Part controller (chapter 10) -/

/-- Where LOADING stands (R157): not loading, waiting for the charter, or loading this table id. -/
inductive LoadPhase
  | idle
  | charter
  | table (t : TableId)
deriving DecidableEq, Repr

/-- The part controller (R155). -/
structure PartController where
  state : PartState
  charter : Charter
  charterAbsent : Bool
  maintPort : Option Port
  working : Option Charter
  committed : Bool
  loading : LoadPhase
deriving DecidableEq, Repr

/-! ## The whole part -/

/-- The state of the part, and the queue of commands waiting. -/
structure State where
  pending : List Instr
  engines : Vector PortEngine 4
  sessions : Vector Session 4
  ends : Vector (List EndBlock) 4
  events : Vector EventQueue 4
  cursors : Vector (Vector Context 4) 4
  saveStacks : Vector (List Context) 4
  mem : Memory
  memEpoch : Nat
  freePool : List Nat
  quarantine : List Nat
  arbiter : Requestor
  tables : Vector TableRecord 32
  notices : List TableId
  reports : List Report
  workList : List TableId
  headWork : Option HeadWork
  scrub : Scrubber
  imageQueue : List QueueEntry
  imageWork : ImageWork
  charterResults : List CharterResult
  store : Vector TablePair 32
  charterSlots : CharterPair
  supply : SupplyState
  part : PartController
deriving DecidableEq, Repr

/-- The reasons a command can stop with a fault: none. The spec names no event that stops the part
(every failure it describes is an outcome with a status), so no meaning raises one. Safe. -/
inductive Fault
deriving DecidableEq, Repr

/-- The reasons a command has no meaning here. -/
inductive Refusal
  /-- Raised by exec's arm of a row that has no meaning yet, under the row's mnemonic; no arm does.
  Safe. -/
  | notModelled (mnemonic : String)
deriving DecidableEq, Repr

/-! ## Values after power-on -/

/-- The default charter's entry of every table (R158, R160). -/
def TableEntry.default : TableEntry :=
  { defined := false, maxPages := 1, writer := none, readers := 0, persistent := false }

/-- The default charter's entry of P0 (R158). -/
def PortEntry.defaultP0 : PortEntry := { enabled := true, maintenance := true, maxLease := 6000 }

/-- The default charter's entry of the other ports (R160). -/
def PortEntry.defaultOther : PortEntry :=
  { enabled := false, maintenance := false, maxLease := 10 }

/-- The default charter (R158, R160), with sequence number 0 (R155). -/
def Charter.default : Charter :=
  { sequence := 0
    scrubPeriod := 0
    tables := Vector.replicate 32 TableEntry.default
    ports := #v[PortEntry.defaultP0, PortEntry.defaultOther, PortEntry.defaultOther,
      PortEntry.defaultOther] }

/-- A table record without versions (R39): next version number 1, load result NOT_PERSISTENT. -/
def TableRecord.fresh (e : TableEntry) : TableRecord :=
  { entry := e, current := none, staged := none, retiring := none, nextVersion := 1
    loadResult := .notPersistent }

/-- The empty NOT_READY response (R171). -/
def Response.notReady : Response := { tag := 0, status := .notReady, flags := 0, data := [] }

/-- A port engine after power-on, its chip select high (R171). -/
def PortEngine.fresh : PortEngine :=
  { csLow := false, rx := .idle, metPending := false, shiftOut := none
    buffer := Response.notReady, inProgress := none, breakTimer := false }

/-- A port's session fields after power-on (R144, R154). -/
def Session.fresh : Session :=
  { isOpen := false, number := 0, leasePeriod := 10, leaseTimer := none, departure := .powerOn
    mask := 0xFF }

/-- An empty event queue with overrun clear (R154). -/
def EventQueue.fresh : EventQueue := { entries := [], overrun := false }

/-- The scrubber after a part reset (R103). -/
def Scrubber.fresh : Scrubber :=
  { running := false, due := false, nextId := 0, visit := none, timer := none }

/-- An erased table slot (R113). -/
def TableSlot.erased : TableSlot := { data := [], header := none, marker := false }

/-- An erased charter slot (R113). -/
def CharterSlot.erased : CharterSlot := { record := none, header := none, marker := false }

/-- The part controller after power-on: in RESET (R156); the charter in force and the charter-absent
flag, which LOADING sets anew, at the values of log 9. -/
def PartController.fresh : PartController :=
  { state := .reset, charter := Charter.default, charterAbsent := false, maintPort := none
    working := none, committed := false, loading := .idle }

/-- The machine right after power-on, in RESET (R156), its image store erased (log 8). -/
def State.reset : State :=
  { pending := []
    engines := Vector.replicate 4 PortEngine.fresh
    sessions := Vector.replicate 4 Session.fresh
    ends := Vector.replicate 4 []
    events := Vector.replicate 4 EventQueue.fresh
    cursors := Vector.replicate 4 (Vector.replicate 4 none)
    saveStacks := Vector.replicate 4 []
    mem := []
    memEpoch := 0
    freePool := List.range 128
    quarantine := []
    arbiter := .portEngine 0
    tables := Vector.replicate 32 (TableRecord.fresh TableEntry.default)
    notices := []
    reports := []
    workList := []
    headWork := none
    scrub := Scrubber.fresh
    imageQueue := []
    imageWork := .idle
    charterResults := []
    store := Vector.replicate 32 { a := TableSlot.erased, b := TableSlot.erased }
    charterSlots := { a := CharterSlot.erased, b := CharterSlot.erased }
    supply := .low
    part := PartController.fresh }

end Sys2Proof.Machine
end

