-- ==== Sys2Proof/Machine/Ops.lean ====
section
/-! DEFINITION. The shared operations of the blocks: accessors of the state, table memory with its
parity and its arbiter, the page pool, the event queues, the table directory, the check value, and
the session end. -/

namespace Sys2Proof.Machine

/-! ## Lists and vectors of like things -/

/-- The four ports. -/
def allPorts : List Port := [0, 1, 2, 3]

/-- The four cursor slots. -/
def allSlots : List SlotId := [0, 1, 2, 3]

/-- The table ids in ascending order. -/
def allTables : List TableId := List.finRange 32

/-- A vector with every element mapped. -/
def mapVector {α β : Type} {n : Nat} (f : α → β) (v : Vector α n) : Vector β n :=
  Vector.ofFn (fun i => f v[i])

/-- Inserts a number into an ascending list without repeats. -/
def insertSorted (x : Nat) : List Nat → List Nat
  | [] => [x]
  | y :: ys => if x < y then x :: y :: ys else if x = y then y :: ys else y :: insertSorted x ys

/-! ## Accessors -/

/-- Port engine of p. -/
def State.engine (s : State) (p : Port) : PortEngine := s.engines[p]
/-- The state with port engine p replaced. -/
def State.setEngine (s : State) (p : Port) (e : PortEngine) : State :=
  { s with engines := s.engines.set p e }
/-- Session fields of p. -/
def State.session (s : State) (p : Port) : Session := s.sessions[p]
/-- The state with p's session fields replaced. -/
def State.setSession (s : State) (p : Port) (x : Session) : State :=
  { s with sessions := s.sessions.set p x }
/-- Event queue of p. -/
def State.queue (s : State) (p : Port) : EventQueue := s.events[p]
/-- The state with p's event queue replaced. -/
def State.setQueue (s : State) (p : Port) (q : EventQueue) : State :=
  { s with events := s.events.set p q }
/-- Cursor slot c of p. -/
def State.cursor (s : State) (p : Port) (c : SlotId) : Context := s.cursors[p][c]
/-- The state with p's cursor slot c replaced. -/
def State.setCursor (s : State) (p : Port) (c : SlotId) (x : Context) : State :=
  { s with cursors := s.cursors.set p (s.cursors[p].set c x) }
/-- Save stack of p, newest first. -/
def State.stack (s : State) (p : Port) : List Context := s.saveStacks[p]
/-- The state with p's save stack replaced. -/
def State.setStack (s : State) (p : Port) (x : List Context) : State :=
  { s with saveStacks := s.saveStacks.set p x }
/-- The blocks that have not yet taken the session end of p. -/
def State.endsOf (s : State) (p : Port) : List EndBlock := s.ends[p]
/-- The state with p's outstanding session ends replaced. -/
def State.setEnds (s : State) (p : Port) (x : List EndBlock) : State :=
  { s with ends := s.ends.set p x }
/-- Table record of t. -/
def State.table (s : State) (t : TableId) : TableRecord := s.tables[t]
/-- The state with table record t replaced. -/
def State.setTable (s : State) (t : TableId) (r : TableRecord) : State :=
  { s with tables := s.tables.set t r }
/-- Slot pair of t in the image store. -/
def State.pair (s : State) (t : TableId) : TablePair := s.store[t]
/-- The state with t's slot pair replaced. -/
def State.setPair (s : State) (t : TableId) (x : TablePair) : State :=
  { s with store := s.store.set t x }

/-- The attention line of p is driven: the session is OPEN and the queue holds an entry (R152). -/
def State.attention (s : State) (p : Port) : Bool :=
  (s.session p).isOpen && !(s.queue p).entries.isEmpty

/-! ## Table memory (R1 to R4) -/

/-- Whether an odd number of the 17 stored bits are ones. -/
def oddOnes (c : Stored) : Bool :=
  (List.range 17).foldl (fun acc i => acc ^^ c.getLsbD i) false

/-- Whether an odd number of a value's bits are ones. -/
def wordOddOnes (w : Word) : Bool :=
  (List.range 16).foldl (fun acc i => acc ^^ w.getLsbD i) false

/-- What a write stores: the value with its parity bit, so that the 17 bits hold an odd number of
ones (R2). -/
def storedOf (w : Word) : Stored := BitVec.cons (!wordOddOnes w) w

/-- The value of a stored word (R3). -/
def valueOf (c : Stored) : Word := c.extractLsb' 0 16

/-- The stored word at an address, none where nothing has been written since the last part reset. -/
def Memory.read : Memory → Nat → Option Stored
  | [], _ => none
  | (a, c) :: rest, k => if a = k then some c else Memory.read rest k

/-- Stores a word at an address, keeping the addresses strictly rising. -/
def Memory.write : Memory → Nat → Stored → Memory
  | [], k, c => [(k, c)]
  | (a, d) :: rest, k, c =>
    if k < a then (k, c) :: (a, d) :: rest
    else if k = a then (k, c) :: rest
    else (a, d) :: Memory.write rest k c

/-- The canonical form: addresses strictly rising and inside table memory. -/
abbrev Memory.wf (m : Memory) : Prop :=
  (m.map Prod.fst).Pairwise (· < ·) ∧ ∀ c ∈ m, c.1 < Config.pageCount * Config.pageWords

/-- The address of an offset of a version (R1): physical page from the page list, index within the
page. None beyond the page list, or for a page that does not exist; neither arises (log 25). -/
def wordAddress (pages : List Nat) (offset : Nat) : Option Nat :=
  match pages[offset / Config.pageWords]? with
  | some page =>
    if page < Config.pageCount then
      some (page * Config.pageWords + offset % Config.pageWords)
    else none
  | none => none

/-- What is stored at an address: the written word, or a free value where nothing was written since
the last part reset (R4, log 6). -/
def State.storedAt (s : State) (a : Nat) : Stored :=
  (Memory.read s.mem a).getD (Config.undefinedWord s.memEpoch a)

/-- The stored word of an offset of a version. -/
def State.versionWord (s : State) (pages : List Nat) (offset : Nat) : Stored :=
  match wordAddress pages offset with
  | some a => s.storedAt a
  | none => Config.undefinedWord s.memEpoch (Config.pageCount * Config.pageWords)

/-! ## The memory arbiter (R15) -/

/-- The ring, in order. -/
def arbiterRing : List Requestor :=
  [.portEngine 0, .portEngine 1, .portEngine 2, .portEngine 3, .staging, .imageStore]

/-- The requestor after one in the ring. -/
def Requestor.next : Requestor → Requestor
  | .portEngine p =>
    if p = 0 then .portEngine 1 else if p = 1 then .portEngine 2
    else if p = 2 then .portEngine 3 else .staging
  | .staging => .imageStore
  | .imageStore => .portEngine 0

/-- The first requestor of `waiting` at or after the pointer in ring order; `fuel` bounds the turns. -/
def arbiterScan (waiting : List Requestor) : Nat → Requestor → Option Requestor
  | 0, _ => none
  | fuel + 1, r => if r ∈ waiting then some r else arbiterScan waiting fuel r.next

/-- R15: the first waiting requestor at or after the pointer. -/
def arbiterSelect (pointer : Requestor) (waiting : List Requestor) : Option Requestor :=
  arbiterScan waiting arbiterRing.length pointer

/-- Where the request in progress on p stands. -/
def State.turn (s : State) (p : Port) : Turn :=
  match (s.engine p).inProgress with
  | some job => job.turn
  | none => .start

/-- The state with the request in progress on p at another place. -/
def State.setTurn (s : State) (p : Port) (turn : Turn) : State :=
  s.setEngine p
    { s.engine p with
      inProgress := (s.engine p).inProgress.map (fun job => { job with turn := turn }) }

/-- Whether a BIND stands between its pin on this version and what follows the pin (R44). -/
def State.bindStands (s : State) (t : TableId) (n : Nat) : Bool :=
  allPorts.any fun p =>
    match s.turn p with
    | .pinned _ new _ _ => decide (new.table = t) && decide (new.version = n)
    | .start | .held | .reading _ | .writing _ => false

/-- Whether port engine p waits for a word: a FETCH or PEEK in turns whose session has not ended
(R15: the end of a session withdraws the waiting access). -/
def State.readWaits (s : State) (p : Port) : Bool :=
  match s.turn p with
  | .reading _ => (s.session p).isOpen
  | .start | .held | .pinned _ _ _ _ | .writing _ => false

/-- Whether the staging engine is between two words of a WRITE whose session has not ended (R86). -/
def State.writeWaits (s : State) : Bool :=
  allPorts.any fun p =>
    match s.turn p with
    | .writing _ => (s.session p).isOpen
    | .start | .held | .pinned _ _ _ _ | .reading _ => false

/-- Whether the staging engine's work list carries a version in this sub-state (R75, R80). -/
def SubState.listed : SubState → Bool
  | .filling .zero | .filling (.value _) | .filling (.copy _) | .summing _ => true
  | .filling .store | .opened | .held _ => false

/-- Whether the head of the work list has a word to fill or to sum (R75). -/
def State.headWaits (s : State) : Bool :=
  match s.workList with
  | t :: _ => (s.table t).staged.any (fun st => st.sub.listed)
  | [] => false

/-- Whether the image store controller has a word to read for a persist or to write for a STORE read
(R118, R125). -/
def State.imageWaits (s : State) : Bool :=
  match s.imageWork with
  | .persistProgramming _ _ | .reading _ => true
  | .idle | .persistErasing _ | .persistMarking _ | .selecting _ _ | .charterErasing _
  | .charterProgramming _ => false

/-- Whether a ring requestor waits for the access path: it has a word access of its work before it
(log 16). -/
def State.waits (s : State) : Requestor → Bool
  | .portEngine p => s.readWaits p
  | .staging => s.writeWaits || s.headWaits
  | .imageStore => s.imageWaits

/-- The ring requestors that wait (R15). -/
def State.waiting (s : State) : List Requestor := arbiterRing.filter s.waits

/-- Whether the arbiter grants the next access to r, which waits with the others (R15). -/
def State.grants (s : State) (r : Requestor) : Bool :=
  decide (arbiterSelect s.arbiter (r :: s.waiting) = some r)

/-- One grant to r: the pointer moves to the requestor after it (R15). -/
def State.grant (s : State) (r : Requestor) : State := { s with arbiter := r.next }

/-- One word read by a ring requestor: the value, and whether its parity is good (R3). -/
def State.readGranted (s : State) (r : Requestor) (pages : List Nat) (offset : Nat) :
    State × Word × Bool :=
  (s.grant r, valueOf (s.versionWord pages offset), oddOnes (s.versionWord pages offset))

/-- One word write by a ring requestor (R2). -/
def State.writeGranted (s : State) (r : Requestor) (pages : List Nat) (offset : Nat) (w : Word) :
    State :=
  match wordAddress pages offset with
  | some a => { s.grant r with mem := Memory.write s.mem a (storedOf w) }
  | none => s.grant r

/-- Writes words at consecutive offsets, in order, one grant each, where no other requestor waits
(R128). -/
def State.writeWords (s : State) (r : Requestor) (pages : List Nat) : Nat → List Word → State
  | _, [] => s
  | offset, w :: ws => (s.writeGranted r pages offset w).writeWords r pages (offset + 1) ws

/-! ## The check value (R99, R100) -/

/-- One bit of the check value: generator x^16 + x^12 + x^5 + 1. -/
def checkBit (reg : Word) (b : Bool) : Word :=
  if b ^^ reg.msb then (reg <<< 1) ^^^ 0x1021 else reg <<< 1

/-- One input word, most significant bit first. -/
def checkFeed (reg w : Word) : Word :=
  [15, 14, 13, 12, 11, 10, 9, 8, 7, 6, 5, 4, 3, 2, 1, 0].foldl
    (fun r i => checkBit r (w.getLsbD i)) reg

/-- The register before the first input word. -/
def checkStart : Word := 0xFFFF

/-- The check value of a sequence of input words. -/
def checkOf (input : List Word) : Word := input.foldl checkFeed checkStart

/-- The register after the length of a version, its first input word (R100). -/
def checkOfLength (length : Nat) : Word := checkFeed checkStart (BitVec.ofNat 16 length)

/-- The check value of a version or image: its length, then its words (R100). -/
def checkValue (length : Nat) (words : List Word) : Word :=
  words.foldl checkFeed (checkOfLength length)

/-! ## The page pool (R7 to R13) -/

/-- Pages that hold a number of words (spec/00_scope.md, Conventions). -/
def pagesFor (length : Nat) : Nat := (length + Config.pageWords - 1) / Config.pageWords

/-- An allocation of n pages: the n lowest free pages, or none (R9, R10). -/
def State.allocate (s : State) (n : Nat) : Option (List Nat × State) :=
  if n ≤ s.freePool.length then
    some (s.freePool.take n, { s with freePool := s.freePool.drop n })
  else none

/-- The pages of a list whose logical index is not in the faulty set, in logical order. -/
def soundPages (pages faulty : List Nat) : List Nat :=
  (pages.zipIdx.filter (fun x => !faulty.contains x.2)).map Prod.fst

/-- The pages of a list whose logical index is in the faulty set, in logical order. -/
def faultyPages (pages faulty : List Nat) : List Nat :=
  (pages.zipIdx.filter (fun x => faulty.contains x.2)).map Prod.fst

/-- A release: sound pages into the free pool at their sorted place, faulty pages to the back of the
quarantine list, each in logical order (R12). -/
def State.releasePages (s : State) (pages faulty : List Nat) : State :=
  { s with
    freePool := (soundPages pages faulty).foldl (fun pool x => insertSorted x pool) s.freePool
    quarantine := s.quarantine ++ faultyPages pages faulty }

/-! ## Entering events (R146 to R148) -/

/-- The number of an event kind (section 11.5, event record). -/
def EventKind.code : EventKind → Nat
  | .newVersion => 1
  | .commitDone => 2
  | .fillDone => 3
  | .retired => 4
  | .damage => 5
  | .persistDone => 6
  | .charterDone => 7
  | .supply => 8

/-- Whether a mask enables a kind: bit k - 1 for kind k (R149, section 11.5). -/
def maskEnables (mask : Byte) (k : EventKind) : Bool := mask.getLsbD (k.code - 1)

/-- Whether an event coalesces with an entry: NEW_VERSION of the same table, or SUPPLY (R147). -/
def Event.coalescesWith (e entry : Event) : Bool :=
  match e.kind with
  | .newVersion => decide (entry.kind = .newVersion) && decide (entry.table = e.table)
  | .supply => decide (entry.kind = .supply)
  | .commitDone | .fillDone | .retired | .damage | .persistDone | .charterDone => false

/-- An entry with the version number, result code and extra byte of a newer event (R147). -/
def Event.update (entry e : Event) : Event :=
  { entry with version := e.version, result := e.result, extra := e.extra }

/-- Steps 3 to 5 of R146 on one queue. -/
def EventQueue.enter (q : EventQueue) (e : Event) : EventQueue :=
  if q.entries.any e.coalescesWith then
    { q with entries := q.entries.map (fun x => if e.coalescesWith x then x.update e else x) }
  else if q.entries.length < Config.eventCapacity then { q with entries := q.entries ++ [e] }
  else { q with overrun := true }

/-- A request to enter an event in the queue of p, for a named session where the kind has one: all
of R146. -/
def State.enterEvent (s : State) (p : Port) (named : Option Nat) (e : Event) : State :=
  if (s.session p).isOpen = true ∧ (named = none ∨ named = some (s.session p).number)
      ∧ maskEnables (s.session p).mask e.kind = true then
    s.setQueue p ((s.queue p).enter e)
  else s

/-- One event entered for several ports, each a request of its own (R146). -/
def State.enterEvents (s : State) (ports : List Port) (e : Event) : State :=
  ports.foldl (fun s p => s.enterEvent p none e) s

/-- The ports of a table's reader set and its writer port, each once (R17). -/
def TableEntry.audience (e : TableEntry) : List Port :=
  allPorts.filter (fun p => e.readers.getLsbD p.val || decide (e.writer = some p))

/-- An event for a table's writer port and its issuing session (R96). -/
def State.tellWriter (s : State) (t : TableId) (session : Nat) (e : Event) : State :=
  match (s.table t).entry.writer with
  | some p => s.enterEvent p (some session) e
  | none => s

/-! ## The table directory -/

/-- The version number after one; after 65535 comes 1 (R20). -/
def nextNumber (n : Nat) : Nat := if Config.maxVersion ≤ n then 1 else n + 1

/-- Whether a number is that of the table's CURRENT or RETIRING version. -/
def TableRecord.numberHeld (r : TableRecord) (n : Nat) : Bool :=
  decide (r.current.map (·.number) = some n) || decide (r.retiring.map (·.number) = some n)

/-- R20: the first candidate from the next version number that neither CURRENT nor RETIRING has.
Two versions can hold at most two candidates, so three tries are enough. -/
def TableRecord.pickNumber (r : TableRecord) : Nat :=
  if r.numberHeld r.nextVersion then
    if r.numberHeld (nextNumber r.nextVersion) then nextNumber (nextNumber r.nextVersion)
    else nextNumber r.nextVersion
  else r.nextVersion

/-- The CURRENT or RETIRING version of a number, and whether it is CURRENT (R41). -/
def TableRecord.lookup (r : TableRecord) (n : Nat) : Option (Version × Bool) :=
  match r.current with
  | some v =>
    if v.number = n then some (v, true)
    else
      match r.retiring with
      | some w => if w.number = n then some (w, false) else none
      | none => none
  | none =>
    match r.retiring with
    | some w => if w.number = n then some (w, false) else none
    | none => none

/-- The lookup of a slot's version at the directory (R41). -/
def State.lookup (s : State) (t : TableId) (n : Nat) : Option (Version × Bool) :=
  (s.table t).lookup n

/-- Whether a version is DAMAGED. -/
def Version.damaged (v : Version) : Bool := decide (v.damage ≠ .clear)

/-- A version with one more pin. -/
def Version.pin (v : Version) : Version := { v with pins := v.pins + 1 }

/-- A version with one pin less. -/
def Version.unpin (v : Version) : Version := { v with pins := v.pins - 1 }

/-- R29: a pin on the CURRENT version; none where the table is EMPTY. The version returned is the
one pinned, as it stood. -/
def State.pinCurrent (s : State) (t : TableId) : Option (Version × State) :=
  match (s.table t).current with
  | some v => some (v, s.setTable t { s.table t with current := some v.pin })
  | none => none

/-- R30: a pin on the CURRENT or RETIRING version of a number. -/
def State.pinNamed (s : State) (t : TableId) (n : Nat) : State :=
  match (s.table t).current, (s.table t).retiring with
  | some v, r =>
    if v.number = n then s.setTable t { s.table t with current := some v.pin }
    else
      match r with
      | some w =>
        if w.number = n then s.setTable t { s.table t with retiring := some w.pin } else s
      | none => s
  | none, some w =>
    if w.number = n then s.setTable t { s.table t with retiring := some w.pin } else s
  | none, none => s

/-- Whether a table's STAGED version is HELD. -/
def TableRecord.stagedHeld (r : TableRecord) : Bool :=
  match r.staged with
  | some st => match st.sub with | .held _ => true | .filling _ | .opened | .summing _ => false
  | none => false

/-- R27: retirement of a table's RETIRING version: the pages leave it, the reference becomes absent,
RETIRED is entered for the writer, and the retirement notice is handed on where the STAGED version
is HELD, in this order. -/
def State.retire (s : State) (t : TableId) : State :=
  match (s.table t).retiring with
  | some v =>
    let s1 := (s.releasePages v.pages v.faulty).setTable t { s.table t with retiring := none }
    let s2 :=
      match (s.table t).entry.writer with
      | some p => s1.enterEvent p none
          { kind := .retired, table := some t, version := v.number, result := .ok, extra := 0 }
      | none => s1
    if (s.table t).stagedHeld then { s2 with notices := s2.notices ++ [t] } else s2
  | none => s

/-- R31: an unpin of a named version; at count 0 a RETIRING version is retired (R27). -/
def State.unpin (s : State) (t : TableId) (n : Nat) : State :=
  let retiringCase : State :=
    match (s.table t).retiring with
    | some w =>
      if w.number = n then
        let s1 := s.setTable t { s.table t with retiring := some w.unpin }
        if w.unpin.pins = 0 then s1.retire t else s1
      else s
    | none => s
  match (s.table t).current with
  | some v =>
    if v.number = n then s.setTable t { s.table t with current := some v.unpin } else retiringCase
  | none => retiringCase

/-- R31: a rebind: a pin on the CURRENT version and an unpin of the old one, as one step. A rebind
whose old version is CURRENT changes nothing. None where there is no CURRENT version, which does not
arise. -/
def State.rebind (s : State) (t : TableId) (n : Nat) : Option (Version × State) :=
  match (s.table t).current with
  | some v =>
    if v.number = n then some (v, s)
    else some (v, (s.setTable t { s.table t with current := some v.pin }).unpin t n)
  | none => none

/-- R22: creation of a STAGED version in FILLING, with its number (R20). -/
def State.createStaged (s : State) (t : TableId) (length : Nat) (pages : List Nat)
    (kind : FillKind) (session : Nat) : State :=
  let r := s.table t
  let n := r.pickNumber
  s.setTable t
    { r with
      nextVersion := nextNumber n
      staged := some
        { version :=
            { number := n, length := length, pages := pages, check := none, pins := 0
              damage := .clear, faulty := [] }
          sub := .filling kind
          session := session } }

/-- R26: release of a table's STAGED version, in whatever sub-state. -/
def State.releaseStaged (s : State) (t : TableId) : State :=
  match (s.table t).staged with
  | some st =>
    (s.releasePages st.version.pages st.version.faulty).setTable t
      { s.table t with staged := none }
  | none => s

/-- R23, R24: the swap, taken only when the table has a STAGED and no RETIRING version: the old
CURRENT version becomes RETIRING or is released, the STAGED version becomes CURRENT, and NEW_VERSION
is entered. -/
def State.swap (s : State) (t : TableId) : State :=
  match (s.table t).staged, (s.table t).retiring with
  | some st, none =>
    let new := st.version
    let s1 :=
      match (s.table t).current with
      | some v =>
        if v.pins = 0 then
          (s.releasePages v.pages v.faulty).setTable t
            { s.table t with current := some new, staged := none }
        else s.setTable t
          { s.table t with current := some new, staged := none, retiring := some v }
      | none => s.setTable t { s.table t with current := some new, staged := none }
    s1.enterEvents (s.table t).entry.audience
      { kind := .newVersion, table := some t, version := new.number, result := .ok
        extra := pagesFor new.length }
  | some _, some _ => s
  | none, _ => s

/-- A version with a page added to its faulty set and the DAMAGED flag set with cause PARITY where it
was clear (R34). -/
def Version.markParity (v : Version) (page : Nat) : Version :=
  { v with
    faulty := insertSorted page v.faulty
    damage := if v.damage = .clear then .parity else v.damage }

/-- R36: the DAMAGE events of a version whose flag has just been set. -/
def State.enterDamage (s : State) (t : TableId) (n : Nat) (cause : Status) : State :=
  s.enterEvents (s.table t).entry.audience
    { kind := .damage, table := some t, version := n, result := cause, extra := 0 }

/-- R34: a parity report taken at the directory. A version not resident: the report is discarded. -/
def State.parityReport (s : State) (t : TableId) (n page : Nat) : State :=
  let r := s.table t
  let noted (v : Version) (s1 : State) : State :=
    if v.damage = .clear then s1.enterDamage t n .parity else s1
  let stagedCase : State :=
    match r.staged with
    | some st =>
      if st.version.number = n then
        noted st.version
          (s.setTable t { r with staged := some { st with version := st.version.markParity page } })
      else s
    | none => s
  let retiringCase : State :=
    match r.retiring with
    | some v =>
      if v.number = n then
        noted v (s.setTable t { r with retiring := some (v.markParity page) })
      else stagedCase
    | none => stagedCase
  match r.current with
  | some v =>
    if v.number = n then noted v (s.setTable t { r with current := some (v.markParity page) })
    else retiringCase
  | none => retiringCase

/-- R35: a check report taken at the directory: applied only to the CURRENT version, and only where
its DAMAGED flag is clear. -/
def State.checkReport (s : State) (t : TableId) (n : Nat) : State :=
  match (s.table t).current with
  | some v =>
    if v.number = n ∧ v.damage = .clear then
      (s.setTable t { s.table t with current := some { v with damage := .check } }).enterDamage t n
        .check
    else s
  | none => s

/-! ## Sessions -/

/-- The port's session is OPEN and has this number (R96, R122). -/
def State.sessionIs (s : State) (p : Port) (n : Nat) : Bool :=
  (s.session p).isOpen && decide ((s.session p).number = n)

/-- R136: a taken request of an open session restarts its lease timer with the full period. -/
def State.restartLease (s : State) (p : Port) : State :=
  if (s.session p).isOpen then
    s.setSession p { s.session p with leaseTimer := some (s.session p).leasePeriod }
  else s

/-- The blocks that are handed the end of p's session (R140). -/
def State.endTargets (s : State) (p : Port) : List EndBlock :=
  [.eventUnit, .cursorFile, .saveStacks, .stagingEngine, .imageStore]
    ++ (if s.part.maintPort = some p then [.partController] else [])

/-- R140: the session unit's step of a session end, and the handing of it to the blocks; the port engine's
waiting access is withdrawn with it (R15, State.readWaits). -/
def State.endSession (s : State) (p : Port) (cause : Departure) : State :=
  if (s.session p).isOpen then
    (s.setSession p
      { s.session p with isOpen := false, leaseTimer := none, departure := cause }).setEnds p
        (s.endTargets p)
  else s

/-- A block takes a session end: it is no longer outstanding. -/
def State.takeEnd (s : State) (p : Port) (b : EndBlock) : State :=
  s.setEnds p ((s.endsOf p).erase b)

/-! ## The staging engine's and the image store's queues -/

/-- An entry leaves the staging work list; the head's progress is discarded with the head (R75,
R80). -/
def State.leaveWorkList (s : State) (t : TableId) : State :=
  { s with
    workList := s.workList.filter (fun x => x ≠ t)
    headWork := if s.workList.head? = some t then none else s.headWork }

/-- The head of the image store queue leaves it, and the controller is IDLE (R115). -/
def State.leaveQueue (s : State) : State :=
  { s with imageQueue := s.imageQueue.tail, imageWork := .idle }

/-- Whether a queue entry is the STORE_READ of a table. -/
def QueueEntry.isStoreRead (e : QueueEntry) (t : TableId) : Bool :=
  match e.op with
  | .storeRead u => decide (u = t)
  | .persist _ | .charterWrite _ => false

/-- Whether a queue entry is a PERSIST of a table. -/
def QueueEntry.isPersist (e : QueueEntry) (t : TableId) : Bool :=
  match e.op with
  | .persist u => decide (u = t)
  | .storeRead _ | .charterWrite _ => false

/-- Whether a queue entry is a CHARTER_WRITE. -/
def QueueEntry.isCharterWrite (e : QueueEntry) : Bool :=
  match e.op with
  | .charterWrite _ => true
  | .persist _ | .storeRead _ => false

/-- Whether the head of the image store queue has started (R115). -/
def State.headStarted (s : State) : Bool := decide (s.imageWork ≠ .idle)

/-- R93, R125: the STORE_READ of a table is withdrawn, or stopped where it is in flight. -/
def State.withdrawStoreRead (s : State) (t : TableId) : State :=
  match s.imageQueue with
  | [] => s
  | e :: rest =>
    if s.headStarted then
      if e.isStoreRead t then { s with imageQueue := rest, imageWork := .idle }
      else { s with imageQueue := e :: rest.filter (fun x => !x.isStoreRead t) }
    else { s with imageQueue := (e :: rest).filter (fun x => !x.isStoreRead t) }

/-- R93: ends the work of a table's STAGED version as its sub-state requires: a COPY source in hand
is unpinned, the entry leaves its list or queue. -/
def State.endStagedWork (s : State) (t : TableId) : State :=
  match (s.table t).staged with
  | some st =>
    match st.sub with
    | .filling .store => s.withdrawStoreRead t
    | .filling .zero | .filling (.value _) | .filling (.copy _) | .summing _ =>
      let s1 :=
        match (if s.workList.head? = some t then s.headWork else none) with
        | some w =>
          match w.source with
          | some n => s.unpin t n
          | none => s
        | none => s
      s1.leaveWorkList t
    | .opened | .held _ => s
  | none => s

/-- R93, R97: the STAGED version's work ends and the version is released. -/
def State.abandonStaged (s : State) (t : TableId) : State :=
  (s.endStagedWork t).releaseStaged t

end Sys2Proof.Machine
end

