-- ==== Sys2Proof/Machine/Flags.lean ====
section
/-! DEFINITION. The flags byte of a response (section 11.5). -/

namespace Sys2Proof.Machine

/-- The flags of a response; a flag a request does not name stays clear (R54). -/
structure Flags where
  endReached : Bool := false
  stale : Bool := false
  rebound : Bool := false
  damaged : Bool := false
  parity : Bool := false
  merged : Bool := false
deriving DecidableEq, Repr

/-- One flag at its bit. -/
def flagBit (b : Bool) (i : Nat) : Byte := if b then 1#8 <<< i else 0

/-- Flags bits from bit 0: END, STALE, REBOUND, DAMAGED, PARITY, MERGED; bits 6 and 7 are 0
(section 11.5, R174). -/
def Flags.byte (f : Flags) : Byte :=
  flagBit f.endReached 0 ||| flagBit f.stale 1 ||| flagBit f.rebound 2 ||| flagBit f.damaged 3
    ||| flagBit f.parity 4 ||| flagBit f.merged 5

/-- A LINEAR cursor stands at END: its offset equals the length (R40, R48). -/
def Binding.atEnd (b : Binding) (length : Nat) : Bool :=
  decide (b.mode = .linear) && decide (b.offset = length)

end Sys2Proof.Machine
end

