-- ==== Sys2Proof/Machine/Layouts.lean ====
section
/-! DEFINITION. Codes and byte layouts of the wire (section 11.5): status codes, charter entries,
role blocks, TABLE_INFO, event records and responses. -/

namespace Sys2Proof.Machine

/-- A number as a byte of the wire. -/
def byteOf (n : Nat) : Byte := BitVec.ofNat 8 n

/-- A number as a word of the wire, high byte first. -/
def wordBytes (n : Nat) : List Byte := bytesOfWord (BitVec.ofNat 16 n)

/-- A 32-bit number, most significant byte first. -/
def longBytes (n : Nat) : List Byte :=
  [byteOf (n / 16777216), byteOf (n / 65536), byteOf (n / 256), byteOf n]

/-- A yes-or-no byte. -/
def boolByte (b : Bool) : Byte := if b then 1 else 0

/-- A table id, 0xFF where absent. -/
def tableByte : Option TableId → Byte
  | some t => byteOf t.val
  | none => 0xFF

/-- A writer port, 0xFF for none. -/
def portByte : Option Port → Byte
  | some p => byteOf p.val
  | none => 0xFF

/-- Status codes (section 11.5); CHECK has none there (log 11). -/
def Status.code : Status → Byte
  | .ok => 0x00
  | .accepted => 0x01
  | .pending => 0x02
  | .busy => 0x03
  | .frameError => 0x04
  | .badRequest => 0x05
  | .range => 0x06
  | .notReady => 0x07
  | .maintenance => 0x08
  | .noSession => 0x09
  | .alreadyOpen => 0x0A
  | .denied => 0x0B
  | .undefined => 0x0C
  | .empty => 0x0D
  | .unbound => 0x0E
  | .stackFull => 0x0F
  | .stackEmpty => 0x10
  | .stageExists => 0x11
  | .notStaged => 0x12
  | .noSpace => 0x13
  | .queueFull => 0x14
  | .supplyLow => 0x15
  | .notPersistent => 0x16
  | .damaged => 0x17
  | .sessionsOpen => 0x18
  | .imageBusy => 0x19
  | .noCharter => 0x1A
  | .retireBusy => 0x20
  | .parity => 0x21
  | .noImage => 0x22
  | .badImage => 0x23
  | .tooLong => 0x24
  | .writeFailed => 0x25
  | .check => Config.checkResultCode

/-- Load results as status codes; LOADED is 0x00. -/
def LoadResult.code : LoadResult → Byte
  | .loaded => 0x00
  | .notPersistent => Status.notPersistent.code
  | .noImage => Status.noImage.code
  | .badImage => Status.badImage.code
  | .noSpace => Status.noSpace.code
  | .tooLong => Status.tooLong.code

/-- Mode codes. -/
def Mode.code : Mode → Byte
  | .page => 0
  | .linear => 1
  | .ring => 2

/-- Sub-state codes; none is 0. -/
def SubState.code : SubState → Byte
  | .filling _ => 1
  | .opened => 2
  | .summing _ => 3
  | .held _ => 4

/-- Part state codes. -/
def PartState.code : PartState → Byte
  | .reset => 0
  | .loading => 1
  | .service => 2
  | .maintenance => 3
  | .unchartered => 4

/-- Supply state codes. -/
def SupplyState.code : SupplyState → Nat
  | .ok => 0
  | .low => 1

/-- Departure codes. -/
def Departure.code : Departure → Byte
  | .powerOn => 0
  | .closed => 1
  | .leaseExpired => 2
  | .portBreak => 3
  | .pinReset => 4
  | .supplyReset => 5
  | .charterRestart => 6

/-- Damage codes of a role block. -/
def Damage.code : Damage → Byte
  | .clear => 0
  | .parity => 1
  | .check => 2

/-- A stride as a signed byte. -/
def strideByte (n : Int) : Byte := BitVec.ofInt 8 n

/-- The five bytes of a table entry of the charter. -/
def TableEntry.bytes (e : TableEntry) : List Byte :=
  [boolByte e.defined, byteOf e.maxPages, portByte e.writer, e.readers.setWidth 8,
    boolByte e.persistent]

/-- The five bytes of a port entry of the charter. -/
def PortEntry.bytes (e : PortEntry) : List Byte :=
  [boolByte e.enabled, boolByte e.maintenance] ++ wordBytes e.maxLease ++ [0]

/-- The five bytes of the part entry, with the sequence number it is to show. -/
def partEntryBytes (scrubPeriod sequence : Nat) : List Byte :=
  byteOf scrubPeriod :: longBytes sequence

/-- The input words of a charter's check value: every entry's five bytes in ascending entry number,
each byte one word with high byte 0, the sequence number fed as 0 (R113). -/
def Charter.checkInput (c : Charter) : List Word :=
  ((c.tables.toList.flatMap TableEntry.bytes ++ c.ports.toList.flatMap PortEntry.bytes
    ++ partEntryBytes c.scrubPeriod 0).map (fun b => b.setWidth 16))

/-- The check value of a charter record (R113). -/
def Charter.checkValue (c : Charter) : Word := checkOf c.checkInput

/-- The ten bytes of a role block; an absent role's block is all zero. -/
def roleBlock : Option Version → List Byte
  | some v =>
    wordBytes v.number ++ wordBytes v.length ++ [byteOf v.pins]
      ++ (match v.check with
          | some w => 1 :: bytesOfWord w
          | none => [0, 0, 0])
      ++ [v.damage.code, byteOf v.faulty.length]
  | none => [0, 0, 0, 0, 0, 0, 0, 0, 0, 0]

/-- The 40 bytes of TABLE_INFO (R38). -/
def TableRecord.info (r : TableRecord) (t : TableId) : List Byte :=
  [byteOf t.val, boolByte r.entry.defined, boolByte r.entry.persistent, portByte r.entry.writer,
    r.entry.readers.setWidth 8, byteOf r.entry.maxPages, r.loadResult.code]
    ++ wordBytes r.nextVersion
    ++ roleBlock r.current ++ roleBlock (r.staged.map (·.version)) ++ roleBlock r.retiring
    ++ [match r.staged with | some st => st.sub.code | none => 0]

/-- The six bytes of an event record. -/
def Event.bytes (e : Event) : List Byte :=
  [byteOf e.kind.code, tableByte e.table] ++ wordBytes e.version ++ [e.result.code, byteOf e.extra]

/-- The bytes of a response, its CRC-8 last (R170, R171). -/
def Response.bytes (r : Response) : List Byte :=
  let body := [r.tag, r.status.code, r.flags, byteOf r.data.length] ++ r.data
  body ++ [crc8 body]

/-- The byte that a frame shifts out at a position: the response fixed at its fall, then 0xFF
(R171). None while no frame drives data out. -/
def State.sdoByte (s : State) (p : Port) (i : Nat) : Option Byte :=
  (s.engine p).shiftOut.map (fun r => r.bytes.getD i 0xFF)

/-- The level of data out after this many falling clock edges of a frame, most significant bit of each byte
first (R168): the first bit stands from the chip-select fall, and each falling edge brings the next, so this
is the bit that the host samples at the rising edge of this number, counted from 0 (log 39). None where data
out is high impedance. -/
def State.sdoBit (s : State) (p : Port) (edges : Nat) : Option Bool :=
  (s.sdoByte p (edges / 8)).map (fun b => b.getLsbD (7 - edges % 8))

end Sys2Proof.Machine
end

