-- ==== Sys2Proof/Machine/Operands.lean ====
section
/-! DEFINITION. Operand forms: how the operand bytes of a request are read, with their ranges (R174,
section 11.5). None stands for an operand out of range. -/

namespace Sys2Proof.Machine

/-- A table id, 0 to 31. -/
def tableOperand (b : Byte) : Option TableId :=
  if h : b.toNat < 32 then some ⟨b.toNat, h⟩ else none

/-- A cursor slot, 0 to 3 (R42). -/
def slotOperand (b : Byte) : Option SlotId :=
  if h : b.toNat < 4 then some ⟨b.toNat, h⟩ else none

/-- A word count of FETCH or PEEK, 1 to 16 (R53, R56). -/
def countOperand (b : Byte) : Option Nat :=
  if 1 ≤ b.toNat ∧ b.toNat ≤ 16 then some b.toNat else none

/-- An absolute offset of BIND, PEEK or WRITE, 0 to 4,095 (R43, R56, R86). -/
def offsetOperand (w : Word) : Option Nat := if w.toNat ≤ 4095 then some w.toNat else none

/-- An advance mode (section 11.5). -/
def modeOperand (b : Byte) : Option Mode :=
  if b = 0 then some .page else if b = 1 then some .linear else if b = 2 then some .ring else none

/-- A stride: a signed byte, -16 to +16 and not 0 (R43). -/
def strideOperand (b : Byte) : Option Int :=
  if -16 ≤ b.toInt ∧ b.toInt ≤ 16 ∧ b.toInt ≠ 0 then some b.toInt else none

/-- A yes-or-no byte (R174). -/
def yesNoOperand (b : Byte) : Option Bool :=
  if b = 0 then some false else if b = 1 then some true else none

/-- The number of entries asked for by EVENTS, 1 to 4 (R150). -/
def eventCountOperand (b : Byte) : Option Nat :=
  if 1 ≤ b.toNat ∧ b.toNat ≤ 4 then some b.toNat else none

/-- The fill kinds of STAGE without what the record adds to them (section 11.5). -/
inductive FillCode | zero | value | copy | store
deriving DecidableEq, Repr

/-- A fill kind (section 11.5). -/
def fillOperand (b : Byte) : Option FillCode :=
  if b = 0 then some .zero else if b = 1 then some .value else if b = 2 then some .copy
  else if b = 3 then some .store else none

/-- A writer byte: P0 to P3, or 0xFF for none (R174). -/
def writerOperand (b : Byte) : Option (Option Port) :=
  if h : b.toNat < 4 then some (some ⟨b.toNat, h⟩) else if b = 0xFF then some none else none

/-- A reader-set byte: bits 7 to 4 clear (R174). -/
def readersOperand (b : Byte) : Option (BitVec 4) :=
  if b.toNat < 16 then some (BitVec.ofNat 4 b.toNat) else none

/-- Maximum pages, 1 to 16 (R160). -/
def maxPagesOperand (b : Byte) : Option Nat :=
  if 1 ≤ b.toNat ∧ b.toNat ≤ 16 then some b.toNat else none

/-- A maximum lease, 10 to 6000 (R160). -/
def maxLeaseOperand (w : Word) : Option Nat :=
  if Config.minLease ≤ w.toNat ∧ w.toNat ≤ Config.maxLease then some w.toNat else none

/-- The fields of a table entry from its five bytes (R160, section 11.5). -/
def tableEntryOperand (f0 f1 f2 f3 f4 : Byte) : Option TableEntry :=
  match yesNoOperand f0, maxPagesOperand f1, writerOperand f2, readersOperand f3,
      yesNoOperand f4 with
  | some defined, some maxPages, some writer, some readers, some persistent =>
    some { defined := defined, maxPages := maxPages, writer := writer, readers := readers
           persistent := persistent }
  | _, _, _, _, _ => none

/-- The fields of a port entry from its first four bytes; the fifth is ignored (section 11.5). -/
def portEntryOperand (f0 f1 f2 f3 : Byte) : Option PortEntry :=
  match yesNoOperand f0, yesNoOperand f1, maxLeaseOperand (f2.append f3) with
  | some enabled, some maintenance, some maxLease =>
    some { enabled := enabled, maintenance := maintenance, maxLease := maxLease }
  | _, _, _ => none

/-- What an entry number names (R160). -/
inductive EntryName
  | table (t : TableId)
  | port (p : Port)
  | part
deriving DecidableEq, Repr

/-- An entry number: 0 to 31 a table, 32 to 35 a port, 36 the part (R160). -/
def entryOperand (b : Byte) : Option EntryName :=
  if h : b.toNat < 32 then some (.table ⟨b.toNat, h⟩)
  else if h : b.toNat - 32 < 4 then some (.port ⟨b.toNat - 32, h⟩)
  else if b.toNat = 36 then some .part
  else none

end Sys2Proof.Machine
end

