-- ==== Sys2Proof/Machine/Requests.lean ====
section
/-! DEFINITION. How a request in progress is carried out: the session unit's gate (R132), the lease
restart (R136), the owner's work, and the response in the buffer (R169, R171). -/

namespace Sys2Proof.Machine

/-- What an owner answers: status, flags and response data (section 11.5). -/
structure Reply where
  status : Status
  flags : Byte
  data : List Byte
deriving DecidableEq, Repr

/-- A refusal: no flags, no data. -/
def refuse (st : Status) : Reply := { status := st, flags := 0, data := [] }

/-- Status OK with data and flags. -/
def replyOk (data : List Byte) (f : Flags := {}) : Reply :=
  { status := .ok, flags := f.byte, data := data }

/-- Status ACCEPTED with data and flags. -/
def replyAccepted (data : List Byte) (f : Flags := {}) : Reply :=
  { status := .accepted, flags := f.byte, data := data }

/-- The port engine places the response in its buffer and clears the in-progress indication
(R169). -/
def State.respond (s : State) (p : Port) (tag : Byte) (r : Reply) : State :=
  s.setEngine p
    { s.engine p with
      buffer := { tag := tag, status := r.status, flags := r.flags, data := r.data }
      inProgress := none }

/-- The tag of the request in progress on p, where it is this request. In RESET no frame is taken, so
no request reaches the gate (R132, R156). -/
def State.requestTag (s : State) (p : Port) (req : Request) : Option Byte :=
  if s.part.state = .reset then none
  else
    match (s.engine p).inProgress with
    | some job => if job.request = req then some job.tag else none
    | none => none

/-- The session unit's gate (R132): the status of a refusal, or none where the request passes. -/
def State.gate (s : State) (p : Port) (req : Request) : Option Status :=
  match req with
  | .status => none
  | .openSession _ => if s.part.state = .loading then some .notReady else none
  | .nop | .close | .mask _ | .events _ | .tableInfo _ | .bind _ _ _ _ _ _ | .unbind _ | .seek _ _
  | .fetch _ _ | .peek _ _ _ | .resync _ | .cursorInfo _ | .save _ | .restore _ | .discard
  | .stage _ _ _ _ | .write _ _ _ | .commit _ _ | .abort _ | .persist _ | .maintEnter
  | .charterRead _ | .charterWrite _ _ _ _ _ _ | .charterCommit | .maintExit =>
    if s.part.state = .loading then some .notReady
    else if (s.session p).isOpen then none
    else some .noSession

/-- An owner's work: the new state and the answer; no answer where a charter restart has replaced the
buffers (R165), and in cases that do not arise (log 25). -/
abbrev Owner := State → State × Option Reply

/-- A request past the gate: the lease restarts (R136), the owner works, the response is placed. -/
def State.passGate (s : State) (p : Port) (tag : Byte) (owner : Owner) : State :=
  let done := owner (s.restartLease p)
  match done.2 with
  | some reply => done.1.respond p tag reply
  | none => done.1

/-- Carries out the request in progress on p, where it is this one; otherwise nothing (log 2). -/
def State.serve (s : State) (p : Port) (req : Request) (owner : Owner) : State :=
  match s.requestTag p req with
  | some tag =>
    match s.gate p req with
    | some refusal => s.respond p tag (refuse refusal)
    | none => s.passGate p tag owner
  | none => s

/-- An owner that refuses. -/
def refusing (s : State) (st : Status) : State × Option Reply := (s, some (refuse st))

/-- An owner that answers. -/
def answering (s : State) (r : Reply) : State × Option Reply := (s, some r)

/-- The MAINTENANCE refusal of cursor, stack, staging and PERSIST requests (R42, R64, R76, R116). -/
def outsideMaintenance (s : State) (work : State × Option Reply) : State × Option Reply :=
  if s.part.state = .maintenance then refusing s .maintenance else work

end Sys2Proof.Machine
end

