-- ==== Sys2Proof/Machine/Cursors.lean ====
section
/-! DEFINITION. The cursor file's rows: BIND, UNBIND, SEEK, FETCH, PEEK, RESYNC, CURSOR_INFO (R42 to
R60) and SESSION_END_CURSOR_FILE (R61). -/

namespace Sys2Proof.Machine

/-! ## Advance modes (R48 to R51) -/

/-- R48: a LINEAR step; off either edge to END. -/
def linearStep (offset : Nat) (stride : Int) (length : Nat) : Nat :=
  if 0 ≤ (offset : Int) + stride ∧ (offset : Int) + stride < length then
    ((offset : Int) + stride).toNat
  else length

/-- R49: a RING step. -/
def ringStep (offset : Nat) (stride : Int) (length : Nat) : Nat :=
  (((offset : Int) + stride) % (length : Int)).toNat

/-- R50: a PAGE step, within the logical page's base and span. -/
def pageStep (offset : Nat) (stride : Int) (length : Nat) : Nat :=
  let base := offset / Config.pageWords * Config.pageWords
  let span := min Config.pageWords (length - base)
  base + (((offset : Int) - base + stride) % (span : Int)).toNat

/-- The step of a mode. -/
def Mode.step (m : Mode) (offset : Nat) (stride : Int) (length : Nat) : Nat :=
  match m with
  | .page => pageStep offset stride length
  | .linear => linearStep offset stride length
  | .ring => ringStep offset stride length

/-- R51: the offset a rebind leaves, for the new version's length. -/
def Mode.rebindOffset (m : Mode) (offset length : Nat) : Nat :=
  if offset < length then offset
  else
    match m with
    | .linear => length
    | .page | .ring => 0

/-! ## Looking up and rebinding a slot -/

/-- A bound slot after a rebind to version v (R51); unchanged where v is the version it held. -/
def Binding.moveTo (b : Binding) (v : Version) : Binding :=
  if v.number = b.version then b
  else { b with version := v.number, offset := b.mode.rebindOffset b.offset v.length }

/-- Step 1 of a read (R53, R56): with FOLLOW the rebind of R51, otherwise the lookup of R41. Gives the
state, the slot's binding, the version fixed, whether it is CURRENT, and whether the slot moved. None
where the version is not found, which does not arise. -/
def State.fixVersion (s : State) (p : Port) (c : SlotId) (b : Binding) :
    Option (State × Binding × Version × Bool × Bool) :=
  if b.follow then
    match s.rebind b.table b.version with
    | some (v, s1) =>
      some (s1.setCursor p c (some (b.moveTo v)), b.moveTo v, v, true,
        decide (v.number ≠ b.version))
    | none => none
  else
    match s.lookup b.table b.version with
    | some (v, isCurrent) => some (s, b, v, isCurrent, false)
    | none => none

/-- Whether a named version is DAMAGED when a response is built (R54). -/
def State.damagedNow (s : State) (t : TableId) (n : Nat) : Bool :=
  match s.lookup t n with
  | some (v, _) => v.damaged
  | none => false

/-- A slot request past its operand checks: the slot must be bound (R42 step 5). -/
def withBound (s : State) (p : Port) (c : SlotId)
    (work : Binding → State × Option Reply) : State × Option Reply :=
  match s.cursor p c with
  | some b => work b
  | none => refusing s .unbound

/-! ## BIND and UNBIND -/

/-- The unpin of the version a slot held (R44, R66). -/
def State.unpinOld (s : State) : Context → State
  | some b => s.unpin b.table b.version
  | none => s

/-- BIND's checks from the definition on, and its pin (R43, R44). The pin is counted from here on, before
the slot is written and before the unpin that follows it (R28): BIND goes on from there
(State.bindPinned). That excess is one pin and no more, so a BIND waits while another port's stands at its
pin on the same version (R28, log 37). -/
def bindTable (p : Port) (c : SlotId) (t : TableId) (offset : Nat) (mode : Mode) (stride : Int)
    (follow : Bool) : Owner := fun s =>
  if (s.table t).entry.defined = false then refusing s .undefined
  else if p ∉ (s.table t).entry.audience then refusing s .denied
  else
    match s.pinCurrent t with
    | none => refusing s .empty
    | some (v, s1) =>
      let new : Binding :=
        { table := t, version := v.number, offset := offset, mode := mode, stride := stride
          follow := follow }
      if s.bindStands t v.number then (s.setTurn p .held, none)
      else (s1.setTurn p (.pinned c new v.length v.damaged), none)

/-- BIND's work (R42, R43). -/
def bindOwner (p : Port) (slot table : Byte) (offset : Word) (mode stride follow : Byte) : Owner :=
  fun s => outsideMaintenance s <|
    match slotOperand slot, tableOperand table, offsetOperand offset, modeOperand mode,
        strideOperand stride, yesNoOperand follow with
    | some c, some t, some o, some m, some d, some f => bindTable p c t o m d f s
    | _, _, _, _, _, _ => refusing s .range

/-- UNBIND's work (R46). -/
def unbindOwner (p : Port) (slot : Byte) : Owner := fun s => outsideMaintenance s <|
  match slotOperand slot with
  | some c => withBound s p c fun b =>
    answering ((s.setCursor p c none).unpin b.table b.version)
      (replyOk (byteOf b.table.val :: wordBytes b.version))
  | none => refusing s .range

/-! ## SEEK, RESYNC and CURSOR_INFO -/

/-- SEEK's work (R47). -/
def seekOwner (p : Port) (slot : Byte) (offset : Word) : Owner := fun s => outsideMaintenance s <|
  match slotOperand slot with
  | some c => withBound s p c fun b =>
    match s.lookup b.table b.version with
    | some (v, isCurrent) =>
      if offset.toNat < v.length then
        answering (s.setCursor p c (some { b with offset := offset.toNat }))
          (replyOk (wordBytes v.number ++ wordBytes offset.toNat)
            { stale := !isCurrent, damaged := v.damaged })
      else refusing s .range
    | none => (s, none)
  | none => refusing s .range

/-- RESYNC's work (R52): the rebind of R51 whatever the FOLLOW setting. -/
def resyncOwner (p : Port) (slot : Byte) : Owner := fun s => outsideMaintenance s <|
  match slotOperand slot with
  | some c => withBound s p c fun b =>
    match s.rebind b.table b.version with
    | some (v, s1) =>
      answering (s1.setCursor p c (some (b.moveTo v)))
        (replyOk (wordBytes v.number ++ wordBytes (b.moveTo v).offset)
          { rebound := decide (v.number ≠ b.version), damaged := v.damaged })
    | none => (s, none)
  | none => refusing s .range

/-- CURSOR_INFO's data for a bound slot (R60). -/
def Binding.info (b : Binding) (length : Nat) : List Byte :=
  [1, byteOf b.table.val] ++ wordBytes b.version ++ wordBytes b.offset
    ++ [b.mode.code, strideByte b.stride, boolByte b.follow] ++ wordBytes length

/-- CURSOR_INFO's data for an unbound slot: bound no, table 0xFF, every other field zero (R60). -/
def unboundInfo : List Byte := [0, 0xFF, 0, 0, 0, 0, 0, 0, 0, 0, 0]

/-- CURSOR_INFO's work (R60). -/
def cursorInfoOwner (p : Port) (slot : Byte) : Owner := fun s => outsideMaintenance s <|
  match slotOperand slot with
  | some c =>
    match s.cursor p c with
    | some b =>
      match s.lookup b.table b.version with
      | some (v, isCurrent) =>
        answering s (replyOk (b.info v.length)
          { endReached := b.atEnd v.length, stale := !isCurrent, damaged := v.damaged })
      | none => (s, none)
    | none => answering s (replyOk unboundInfo)
  | none => refusing s .range

/-! ## FETCH and PEEK -/

/-- The offset of the next word of a read: the slot's for a FETCH, none where a LINEAR slot stands at
END (R53); the next one upward for a PEEK (R56). -/
def State.nextOffset (s : State) (p : Port) (job : ReadJob) : Option Nat :=
  match job.walk with
  | .fetch c =>
    match s.cursor p c with
    | some b => if b.atEnd job.length then none else some b.offset
    | none => none
  | .peek start => some (start + job.words.length)

/-- After a good word of a FETCH the slot's offset is stepped (R53); a PEEK moves no slot. -/
def State.stepSlot (s : State) (p : Port) (job : ReadJob) : State :=
  match job.walk with
  | .fetch c =>
    match s.cursor p c with
    | some b =>
      s.setCursor p c
        (some { b with offset := b.mode.step b.offset b.stride job.length })
    | none => s
  | .peek _ => s

/-- A read with one more word. -/
def ReadJob.took (job : ReadJob) (w : Word) : ReadJob :=
  { job with words := job.words ++ [w], left := job.left - 1 }

/-- How the words of a read end for now: all read, or END reached; stopped by a parity error; or another
requestor is granted first, or steps of other blocks may come between. -/
inductive ReadEnd | complete | parity | waits
deriving DecidableEq, Repr

/-- No word is left to read: all are read, or a FETCH stands at END (R53, R56). -/
def State.readEnded (s : State) (p : Port) (job : ReadJob) : Bool :=
  decide (job.left = 0) || (s.nextOffset p job).isNone

/-- The words of a FETCH or PEEK (R53, R56 to R58): up to this many, one grant each, for as long as the
arbiter grants the port engine (R15); a parity error is reported before anything else. Where words are
left after these, the read waits, and other steps may come between (R55). -/
def State.readWords (p : Port) : Nat → State → ReadJob → State × ReadJob × ReadEnd
  | 0, s, job => (s, job, if s.readEnded p job then .complete else .waits)
  | n + 1, s, job =>
    match s.nextOffset p job with
    | none => (s, job, .complete)
    | some o =>
      if s.grants (.portEngine p) then
        let r := s.readGranted (.portEngine p) job.pages o
        if r.2.2 then State.readWords p n (r.1.stepSlot p job) (job.took r.2.1)
        else (r.1.parityReport job.table job.number (o / Config.pageWords), job, .parity)
      else (s, job, .waits)

/-- The offset a slot holds, 0 where unbound. -/
def State.slotOffset (s : State) (p : Port) (c : SlotId) : Nat :=
  match s.cursor p c with
  | some b => b.offset
  | none => 0

/-- Whether a LINEAR slot stands at END for a length (R54). -/
def State.slotAtEnd (s : State) (p : Port) (c : SlotId) (length : Nat) : Bool :=
  match s.cursor p c with
  | some b => b.atEnd length
  | none => false

/-- The response of a FETCH or PEEK (R53, R54, R56), built when its words have ended. -/
def State.readReply (s : State) (p : Port) (job : ReadJob) (parity : Bool) : Reply :=
  let flags : Flags :=
    { stale := job.stale, rebound := job.rebound, parity := parity
      damaged := s.damagedNow job.table job.number }
  match job.walk with
  | .fetch c =>
    replyOk
      (wordBytes job.number ++ wordBytes (s.slotOffset p c) ++ job.words.flatMap bytesOfWord)
      { flags with endReached := s.slotAtEnd p c job.length }
  | .peek start =>
    replyOk (wordBytes job.number ++ wordBytes start ++ job.words.flatMap bytesOfWord) flags

/-- A read goes on by at most this many words: it answers when its words have ended, and otherwise waits
for its next command. -/
def readOn (p : Port) (words : Nat) (job : ReadJob) : Owner := fun s =>
  let done := State.readWords p (min words job.left) s job
  match done.2.2 with
  | .complete => answering done.1 (done.1.readReply p done.2.1 false)
  | .parity => answering done.1 (done.1.readReply p done.2.1 true)
  | .waits => (done.1.setTurn p (.reading done.2.1), none)

/-- A read of a version that its first step has fixed, before its first word (R53, R54, R56). -/
def readJob (walk : Walk) (b : Binding) (v : Version) (isCurrent moved : Bool) (count : Nat) :
    ReadJob :=
  { walk := walk, table := b.table, number := v.number, length := v.length, pages := v.pages
    stale := !isCurrent && !b.follow, rebound := moved, words := [], left := count }

/-- A FETCH or PEEK that has fixed its version goes on; otherwise it begins. -/
def inTurns (p : Port) (words : Nat) (start : Owner) : Owner := fun s =>
  match s.turn p with
  | .reading job => readOn p words job s
  | .start | .held | .pinned _ _ _ _ | .writing _ => start s

/-- FETCH's work (R42, R53). -/
def fetchOwner (p : Port) (slot count : Byte) (words : Nat) : Owner :=
  inTurns p words fun s => outsideMaintenance s <|
    match slotOperand slot, countOperand count with
    | some c, some n => withBound s p c fun b =>
      match s.fixVersion p c b with
      | some (s1, b1, v, isCurrent, moved) =>
        readOn p words (readJob (.fetch c) b1 v isCurrent moved n) s1
      | none => (s, none)
    | _, _ => refusing s .range

/-- PEEK's work (R42, R56). A RANGE refusal after the rebind carries REBOUND (log 21). -/
def peekOwner (p : Port) (slot : Byte) (offset : Word) (count : Byte) (words : Nat) : Owner :=
  inTurns p words fun s => outsideMaintenance s <|
    match slotOperand slot, offsetOperand offset, countOperand count with
    | some c, some o, some n => withBound s p c fun b =>
      match s.fixVersion p c b with
      | some (s1, b1, v, isCurrent, moved) =>
        if v.length < o + n then
          answering s1
            { status := .range, flags := Flags.byte { rebound := moved }, data := [] }
        else readOn p words (readJob (.peek o) b1 v isCurrent moved n) s1
      | none => (s, none)
    | _, _, _ => refusing s .range

/-! ## The rows -/

/-- BIND after its pin (R28, R44), whatever has come between: an offset beyond the pinned version takes
the pin back and is refused RANGE; an offset in range writes the slot, and then unpins the version the slot
held. Where the session has ended meanwhile, which does not arise (R136), the pin is taken back (log 35). -/
def State.bindPinned (s : State) (p : Port) (c : SlotId) (new : Binding) (length : Nat)
    (damaged : Bool) : State × Reply :=
  if length ≤ new.offset then (s.unpin new.table new.version, refuse .range)
  else if (s.session p).isOpen then
    ((s.setCursor p c (some new)).unpinOld (s.cursor p c),
      replyOk (wordBytes new.version ++ wordBytes length) { damaged := damaged })
  else (s.unpin new.table new.version, refuse .noSession)

/-- BIND in its turns (R28, R44): its checks and its pin, and then what follows the pin. -/
def State.bindTurn (s : State) (p : Port) (req : Request) (owner : Owner) : State :=
  match s.requestTag p req, s.turn p with
  | some tag, .pinned c new length damaged =>
    let done := s.bindPinned p c new length damaged
    done.1.respond p tag done.2
  | some _, .start | some _, .held | some _, .reading _ | some _, .writing _ | none, _ =>
    s.serve p req owner

/-- BIND. -/
def execBind (p : Port) (slot table : Byte) (offset : Word) (mode stride follow : Byte)
    (s : State) : Host.Outcome State Fault Refusal :=
  .next (s.bindTurn p (.bind slot table offset mode stride follow)
    (bindOwner p slot table offset mode stride follow))

/-- UNBIND. -/
def execUnbind (p : Port) (slot : Byte) (s : State) : Host.Outcome State Fault Refusal :=
  .next (s.serve p (.unbind slot) (unbindOwner p slot))

/-- SEEK. -/
def execSeek (p : Port) (slot : Byte) (offset : Word) (s : State) :
    Host.Outcome State Fault Refusal :=
  .next (s.serve p (.seek slot offset) (seekOwner p slot offset))

/-- FETCH: at most `words` words in this command, 16 being every word a FETCH can ask for. -/
def execFetch (p : Port) (slot count : Byte) (s : State) (words : Nat := 16) :
    Host.Outcome State Fault Refusal :=
  .next (s.serve p (.fetch slot count) (fetchOwner p slot count words))

/-- PEEK: at most `words` words in this command, as for FETCH. -/
def execPeek (p : Port) (slot : Byte) (offset : Word) (count : Byte) (s : State)
    (words : Nat := 16) : Host.Outcome State Fault Refusal :=
  .next (s.serve p (.peek slot offset count) (peekOwner p slot offset count words))

/-- RESYNC. -/
def execResync (p : Port) (slot : Byte) (s : State) : Host.Outcome State Fault Refusal :=
  .next (s.serve p (.resync slot) (resyncOwner p slot))

/-- CURSOR_INFO. -/
def execCursorInfo (p : Port) (slot : Byte) (s : State) : Host.Outcome State Fault Refusal :=
  .next (s.serve p (.cursorInfo slot) (cursorInfoOwner p slot))

/-- R61: one slot is unbound, with one unpin of the version it held. -/
def State.unbindSlot (s : State) (p : Port) (c : SlotId) : State :=
  match s.cursor p c with
  | some b => (s.setCursor p c none).unpin b.table b.version
  | none => s

/-- R61: the cursor file takes the end of p's session: every slot is unbound, in the order given,
the rest ascending. -/
def State.endCursors (s : State) (p : Port) (order : List SlotId) : State :=
  if EndBlock.cursorFile ∈ s.endsOf p then
    (order ++ allSlots).foldl (fun s c => s.unbindSlot p c) (s.takeEnd p .cursorFile)
  else s

/-- SESSION_END_CURSOR_FILE. -/
def execSessionEndCursorFile (p : Port) (order : List SlotId) (s : State) :
    Host.Outcome State Fault Refusal :=
  .next (s.endCursors p order)

end Sys2Proof.Machine
end

