-- ==== Sys2Proof/Machine/Directory.lean ====
section
/-! DEFINITION. The table directory's own row TABLE_INFO (R38), and its step on a report (R34, R35). -/

namespace Sys2Proof.Machine

/-- TABLE_INFO's work (R38): an operand above 31 is refused RANGE; an undefined table is not
refused. -/
def tableInfoOwner (table : Byte) : Owner := fun s =>
  match tableOperand table with
  | some t => answering s (replyOk ((s.table t).info t))
  | none => refusing s .range

/-- TABLE_INFO. -/
def execTableInfo (p : Port) (table : Byte) (s : State) : Host.Outcome State Fault Refusal :=
  .next (s.serve p (.tableInfo table) (tableInfoOwner table))

/-- A report is taken at the directory, and is no longer on its way (log 13). -/
def State.takeReport (s : State) (r : Report) : State :=
  let s1 := { s with reports := s.reports.erase r }
  match r with
  | .parity t n page => s1.parityReport t n page
  | .check t n => s1.checkReport t n

end Sys2Proof.Machine
end

