-- ==== Sys2Proof/Machine/Events.lean ====
section
/-! DEFINITION. The event unit's rows: MASK (R149), EVENTS (R150) and SESSION_END_EVENT_UNIT
(R153). -/

namespace Sys2Proof.Machine

/-- MASK's work (R149): the mask is replaced whole. -/
def maskOwner (p : Port) (mask : Byte) : Owner := fun s =>
  answering (s.setSession p { s.session p with mask := mask }) (replyOk [mask])

/-- EVENTS' work (R150): the k oldest entries are returned and removed, and overrun is returned and
cleared. -/
def eventsOwner (p : Port) (n : Byte) : Owner := fun s =>
  match eventCountOperand n with
  | some n =>
    let q := s.queue p
    let taken := q.entries.take n
    let left := q.entries.drop n
    answering (s.setQueue p { entries := left, overrun := false })
      (replyOk ([byteOf taken.length, boolByte q.overrun, byteOf left.length]
        ++ taken.flatMap Event.bytes))
  | none => refusing s .range

/-- MASK. -/
def execMask (p : Port) (mask : Byte) (s : State) : Host.Outcome State Fault Refusal :=
  .next (s.serve p (.mask mask) (maskOwner p mask))

/-- EVENTS. -/
def execEvents (p : Port) (n : Byte) (s : State) : Host.Outcome State Fault Refusal :=
  .next (s.serve p (.events n) (eventsOwner p n))

/-- R153: the event unit takes the end of p's session. -/
def State.endEvents (s : State) (p : Port) : State :=
  if EndBlock.eventUnit ∈ s.endsOf p then
    (s.takeEnd p .eventUnit).setQueue p EventQueue.fresh
  else s

/-- SESSION_END_EVENT_UNIT. -/
def execSessionEndEventUnit (p : Port) (s : State) : Host.Outcome State Fault Refusal :=
  .next (s.endEvents p)

end Sys2Proof.Machine
end

