-- ==== Sys2Proof/Machine/Frames.lean ====
section
/-! DEFINITION. The port engines' own steps: FRAME_OPEN, FRAME, PENDING, PORT_BREAK and
DISCARDING_RISE (R168 to R173). -/

namespace Sys2Proof.Machine

/-- A port engine at the chip-select rise: IDLE, data out high impedance, no measurement (R168). -/
def PortEngine.closed (e : PortEngine) : PortEngine :=
  { e with csLow := false, rx := .idle, metPending := false, shiftOut := none, breakTimer := false }

/-- A port engine at the chip-select fall that opens a frame shifting out this response (R168, R171,
R173). -/
def PortEngine.opened (e : PortEngine) (out : Response) (metPending : Bool) : PortEngine :=
  { e with
    csLow := true, rx := .receiving, metPending := metPending, shiftOut := some out
    breakTimer := true }

/-- A response of a status alone, with its tag (R169, R172, R173). -/
def Response.bare (tag : Byte) (st : Status) : Response :=
  { tag := tag, status := st, flags := 0, data := [] }

/-- FRAME_OPEN (R168, R171): from IDLE, with no request in progress, to RECEIVING; the buffered
response is fixed for shifting out. In RESET no frame is taken: the fall is the pin's, and the
port-break measurement starts with it (R173). -/
def State.openFrame (s : State) (p : Port) : State :=
  let e := s.engine p
  if s.part.state = .reset then
    if e.csLow then s else s.setEngine p { e with csLow := true, breakTimer := true }
  else if e.rx = .idle ∧ e.inProgress = none then s.setEngine p (e.opened e.buffer false)
  else s

/-- What the judgement of R169 does: the buffer, the in-progress indication, and the lease of an open
session for a taken frame answered BAD_REQUEST. -/
def State.applyVerdict (s : State) (p : Port) (v : FrameVerdict) : State :=
  match v with
  | .empty => s
  | .error tag => s.setEngine p { s.engine p with buffer := Response.bare tag .frameError }
  | .badRequest tag =>
    (s.setEngine p { s.engine p with buffer := Response.bare tag .badRequest }).restartLease p
  | .taken tag request =>
    s.setEngine p { s.engine p with inProgress := some { tag := tag, request := request } }

/-- FRAME (R169): the rise that closes a frame opened while no request was in progress. -/
def State.closeFrame (s : State) (p : Port) (bits : List Bool) : State :=
  let e := s.engine p
  if s.part.state = .reset then s.setEngine p e.closed
  else if e.rx = .receiving ∧ e.metPending = false then
    (s.setEngine p e.closed).applyVerdict p (judgeFrame (bytesOfBits bits))
  else s

/-- PENDING (R172), the fall: a PENDING response with the tag of the request in progress. -/
def State.pendingFall (s : State) (p : Port) : State :=
  let e := s.engine p
  match e.inProgress with
  | some job =>
    if s.part.state ≠ .reset ∧ e.rx = .idle then
      s.setEngine p (e.opened (Response.bare job.tag .pending) true)
    else s
  | none => s

/-- PENDING (R172), the rise: the frame's own request is refused BUSY: nothing but the frame ends. -/
def State.pendingRise (s : State) (p : Port) : State :=
  let e := s.engine p
  if e.rx = .receiving ∧ e.metPending = true then s.setEngine p e.closed else s

/-- PORT_BREAK (R173, R139): the frame in progress ends, the receive state is DISCARDING, the buffer
takes NO_SESSION, and an open session ends with cause PORT_BREAK. The measurement runs from the fall on,
whatever the receive state, and through a part reset (log 19); after a break it runs no more until the next
fall. A break does not occur while a request is in progress (R139). -/
def State.breakPort (s : State) (p : Port) : State :=
  let e := s.engine p
  if e.breakTimer = true ∧ e.inProgress = none then
    (s.setEngine p
      { e with
        rx := .discarding, metPending := false, breakTimer := false
        buffer := Response.bare 0 .noSession }).endSession p .portBreak
  else s

/-- DISCARDING_RISE (R173): from DISCARDING to IDLE without judging a frame. In RESET any rise only
frees the pin. -/
def State.discardRise (s : State) (p : Port) : State :=
  let e := s.engine p
  if s.part.state = .reset ∨ e.rx = .discarding then s.setEngine p e.closed else s

/-- FRAME. -/
def execFrame (p : Port) (bits : List Bool) (s : State) : Host.Outcome State Fault Refusal :=
  .next (s.closeFrame p bits)

/-- PENDING. -/
def execPending (p : Port) (edge : PendingEdge) (s : State) : Host.Outcome State Fault Refusal :=
  match edge with
  | .fall => .next (s.pendingFall p)
  | .rise => .next (s.pendingRise p)

/-- PORT_BREAK. -/
def execPortBreak (p : Port) (s : State) : Host.Outcome State Fault Refusal :=
  .next (s.breakPort p)

/-- FRAME_OPEN. -/
def execFrameOpen (p : Port) (s : State) : Host.Outcome State Fault Refusal :=
  .next (s.openFrame p)

/-- DISCARDING_RISE. -/
def execDiscardingRise (p : Port) (s : State) : Host.Outcome State Fault Refusal :=
  .next (s.discardRise p)

end Sys2Proof.Machine
end

