-- ==== Sys2Proof/Machine/Staging.lean ====
section
/-! DEFINITION. The staging engine's rows: STAGE, WRITE, COMMIT, ABORT (R76 to R94), FILL_WORD (R82 to
R85), SUMMING_WORD (R88, R89), RETIREMENT_NOTICE (R91), HOLD_DEADLINE (R92) and SESSION_END_STAGING
(R97). -/

namespace Sys2Proof.Machine

/-! ## Shared parts -/

/-- FILL_DONE of a version (R96). -/
def fillDone (t : TableId) (version : Nat) (result : Status) : Event :=
  { kind := .fillDone, table := some t, version := version, result := result, extra := 0 }

/-- COMMIT_DONE of a version (R96). -/
def commitDone (t : TableId) (version : Nat) (result : Status) : Event :=
  { kind := .commitDone, table := some t, version := version, result := result, extra := 0 }

/-- A table's STAGED version in another sub-state. -/
def State.setSub (s : State) (t : TableId) (sub : SubState) : State :=
  match (s.table t).staged with
  | some st => s.setTable t { s.table t with staged := some { st with sub := sub } }
  | none => s

/-- A table's STAGED version with its check value recorded or dropped (R89, R92, R102). -/
def State.setStagedCheck (s : State) (t : TableId) (check : Option Word) : State :=
  match (s.table t).staged with
  | some st =>
    s.setTable t
      { s.table t with staged := some { st with version := { st.version with check := check } } }
  | none => s

/-- Whether the issuing session of a STAGED version is still the writer port's session (R89, R91). -/
def State.issuingSessionHolds (s : State) (t : TableId) (st : Staged) : Bool :=
  match (s.table t).entry.writer with
  | some p => s.sessionIs p st.session
  | none => false

/-- Steps 3 to 5 of R76: the table, its definition and the writer right. `operands` says whether the
request's other operands of step 3 are in range. -/
def writerTable (p : Port) (table : Byte) (operands : Bool)
    (work : TableId → State → State × Option Reply) : Owner := fun s => outsideMaintenance s <|
  match tableOperand table with
  | some t =>
    if operands = false then refusing s .range
    else if (s.table t).entry.defined = false then refusing s .undefined
    else if (s.table t).entry.writer ≠ some p then refusing s .denied
    else work t s
  | none => refusing s .range

/-- Step 6 of R76 for WRITE and COMMIT: the STAGED version must be OPEN. -/
def withOpenStaged (t : TableId) (work : Staged → State → State × Option Reply) : Owner := fun s =>
  match (s.table t).staged with
  | some st =>
    match st.sub with
    | .opened => work st s
    | .filling _ | .summing _ | .held _ => refusing s .busy
  | none => refusing s .notStaged

/-! ## STAGE (R77, R78) -/

/-- The answer of a taken STAGE (R78). -/
def stageReply (version pages source : Nat) (damaged : Bool) : Reply :=
  replyAccepted (wordBytes version ++ [byteOf pages] ++ wordBytes source) { damaged := damaged }

/-- A taken ZERO, VALUE or COPY STAGE (R78); `source` is the version number that a COPY records, 0
for the others. NO_SPACE where the pool is short. -/
def stageFilled (p : Port) (t : TableId) (length : Nat) (kind : FillKind) (source : Nat)
    (damaged : Bool) : Owner := fun s =>
  match s.allocate (pagesFor length) with
  | some (pages, s1) =>
    let s2 := s1.createStaged t length pages kind (s.session p).number
    answering { s2 with workList := s2.workList ++ [t] }
      (stageReply (s.table t).pickNumber pages.length source damaged)
  | none => refusing s .noSpace

/-- A taken STORE STAGE (R78): length 0, no pages, and a STORE_READ at the back of the queue. -/
def stageStore (p : Port) (t : TableId) : Owner := fun s =>
  let s1 := s.createStaged t 0 [] .store (s.session p).number
  let entry : QueueEntry := { op := .storeRead t, port := p, session := (s.session p).number }
  answering { s1 with imageQueue := s1.imageQueue ++ [entry] }
    (stageReply (s.table t).pickNumber 0 0 false)

/-- The checks of R77 for ZERO, VALUE and COPY after the length and the kind; `take` goes on from the
STAGE_EXISTS check. -/
def stageSized (t : TableId) (length : Nat) (take : Owner) : Owner := fun s =>
  if length = 0 ∨ (s.table t).entry.maxPages * Config.pageWords < length then refusing s .range
  else if (s.table t).staged.isSome then refusing s .stageExists
  else take s

/-- The EMPTY check of a COPY STAGE, and its source (R77, R78). -/
def stageCopy (p : Port) (t : TableId) (length : Nat) : Owner := fun s =>
  match (s.table t).current with
  | some v => stageFilled p t length (.copy v.number) v.number v.damaged s
  | none => refusing s .empty

/-- The checks of R77 for STORE after the length and the kind. -/
def stageFromStore (p : Port) (t : TableId) (length : Nat) : Owner := fun s =>
  if length ≠ 0 then refusing s .range
  else if (s.table t).entry.persistent = false then refusing s .notPersistent
  else if (s.table t).staged.isSome then refusing s .stageExists
  else if Config.queueCapacity ≤ s.imageQueue.length then refusing s .queueFull
  else stageStore p t s

/-- STAGE's work (R76, R77). -/
def stageOwner (p : Port) (table : Byte) (length : Word) (fill : Byte) (value : Word) : Owner :=
  writerTable p table true fun t s =>
    if 4096 < length.toNat then refusing s .range
    else
      match fillOperand fill with
      | some .store => stageFromStore p t length.toNat s
      | some .zero => stageSized t length.toNat (stageFilled p t length.toNat .zero 0 false) s
      | some .value =>
        stageSized t length.toNat (stageFilled p t length.toNat (.value value) 0 false) s
      | some .copy => stageSized t length.toNat (stageCopy p t length.toNat) s
      | none => refusing s .range

/-! ## WRITE, COMMIT and ABORT (R86, R87, R93) -/

/-- Whether a WRITE that is about to begin waits: another WRITE is between two of its words, or the head's
COPY fill holds a word it has read and not yet written (R81, log 35). -/
def State.writeHeld (s : State) : Bool :=
  s.writeWaits || s.headWork.any (fun w => w.copied.isSome)

/-- The words of a WRITE (R86), in order, one grant each, for as long as the arbiter grants the staging
engine (R15). -/
def State.writeOn : List Word → State → WriteJob → State × WriteJob
  | [], s, job => (s, { job with words := [] })
  | w :: ws, s, job =>
    if s.grants .staging then
      State.writeOn ws (s.writeGranted .staging job.pages job.offset w)
        { job with offset := job.offset + 1, words := ws }
    else (s, { job with words := w :: ws })

/-- A WRITE goes on: it answers after its last word, and otherwise waits for its next grant. -/
def writeTurn (p : Port) (job : WriteJob) : Owner := fun s =>
  let done := State.writeOn job.words s job
  match done.2.words with
  | [] => answering done.1 (replyOk (wordBytes job.number ++ [byteOf job.count]))
  | _ :: _ => (done.1.setTurn p (.writing done.2), none)

/-- WRITE's checks and its first words (R76, R86). -/
def writeStart (p : Port) (table : Byte) (offset : Word) (words : List Word) : Owner :=
  writerTable p table (offsetOperand offset).isSome fun t =>
    withOpenStaged t fun st s =>
      if st.version.length < offset.toNat + words.length then refusing s .range
      else if s.writeHeld then (s.setTurn p .held, none)
      else
        writeTurn p
          { number := st.version.number, pages := st.version.pages, offset := offset.toNat
            words := words, count := words.length } s

/-- WRITE's work: it goes on where it waits for a grant, and begins otherwise. -/
def writeOwner (p : Port) (table : Byte) (offset : Word) (words : List Word) : Owner := fun s =>
  match s.turn p with
  | .writing job => writeTurn p job s
  | .start | .held | .pinned _ _ _ _ | .reading _ => writeStart p table offset words s

/-- COMMIT's work (R76, R87). -/
def commitOwner (p : Port) (table hold : Byte) : Owner :=
  writerTable p table true fun t =>
    withOpenStaged t fun st s =>
      let s1 := s.setSub t (.summing hold.toNat)
      answering { s1 with workList := s1.workList ++ [t] }
        (replyAccepted (wordBytes st.version.number))

/-- ABORT's work (R76, R93). -/
def abortOwner (p : Port) (table : Byte) : Owner :=
  writerTable p table true fun t s =>
    match (s.table t).staged with
    | some st =>
      answering (s.abandonStaged t)
        (replyOk (wordBytes st.version.number ++ [st.sub.code]))
    | none => refusing s .notStaged

/-- STAGE. -/
def execStage (p : Port) (table : Byte) (length : Word) (fill : Byte) (value : Word) (s : State) :
    Host.Outcome State Fault Refusal :=
  .next (s.serve p (.stage table length fill value) (stageOwner p table length fill value))

/-- WRITE. -/
def execWrite (p : Port) (table : Byte) (offset : Word) (words : List Word) (s : State) :
    Host.Outcome State Fault Refusal :=
  .next (s.serve p (.write table offset words) (writeOwner p table offset words))

/-- COMMIT. -/
def execCommit (p : Port) (table hold : Byte) (s : State) : Host.Outcome State Fault Refusal :=
  .next (s.serve p (.commit table hold) (commitOwner p table hold))

/-- ABORT. -/
def execAbort (p : Port) (table : Byte) (s : State) : Host.Outcome State Fault Refusal :=
  .next (s.serve p (.abort table) (abortOwner p table))

/-! ## FILL_WORD (R82 to R85) -/

/-- R85: a fill completes: the COPY source is unpinned, the sub-state becomes OPEN, the entry leaves
the list, and FILL_DONE is entered. -/
def State.completeFill (s : State) (t : TableId) (st : Staged) (source : Option Nat) : State :=
  let s1 :=
    match source with
    | some n => s.unpin t n
    | none => s
  ((s1.setSub t .opened).leaveWorkList t).tellWriter t st.session
    (fillDone t st.version.number .ok)

/-- R84: a COPY fill ends on a source word with a parity error. -/
def State.failCopy (s : State) (t : TableId) (st : Staged) (source offset : Nat) : State :=
  ((((s.parityReport t source (offset / Config.pageWords)).unpin t source).releaseStaged
    t).leaveWorkList t).tellWriter t st.session (fillDone t st.version.number .parity)

/-- One word of a fill is written, and the head goes on to the next offset or completes. -/
def State.fillOne (s : State) (t : TableId) (st : Staged) (w : HeadWork) (value : Word) : State :=
  let s1 := s.writeGranted .staging st.version.pages w.offset value
  if w.offset + 1 < st.version.length then
    { s1 with headWork := some { w with offset := w.offset + 1, copied := none } }
  else s1.completeFill t st w.source

/-- The write of a source word just read, where the arbiter grants it next; otherwise the engine keeps
the word until it does (R15, R83). -/
def State.writeCopied (s : State) (t : TableId) (st : Staged) (w : HeadWork) (value : Word) : State :=
  if s.grants .staging then s.fillOne t st w value
  else { s with headWork := some { w with copied := some value } }

/-- R83: one word of a COPY fill whose source is pinned: read and written below the source's length, 0
above it. -/
def State.copyOne (s : State) (t : TableId) (st : Staged) (w : HeadWork) (source : Nat) : State :=
  match w.copied with
  | some value => s.fillOne t st w value
  | none =>
    match s.lookup t source with
    | some (v, _) =>
      if w.offset < v.length then
        let r := s.readGranted .staging v.pages w.offset
        if r.2.2 then r.1.writeCopied t st w r.2.1 else r.1.failCopy t st source w.offset
      else s.fillOne t st w 0
    | none => s

/-- The progress of a fill that has just become the head. -/
def HeadWork.atFill : HeadWork := { offset := 0, check := checkStart, source := none }

/-- R83: the first word of a COPY fill comes after the pin of the CURRENT version (log 27). -/
def State.copyStep (s : State) (t : TableId) (st : Staged) (w : HeadWork) : State :=
  match w.source with
  | some n => s.copyOne t st w n
  | none =>
    match s.pinCurrent t with
    | some (v, s1) =>
      let w1 := { w with source := some v.number }
      ({ s1 with headWork := some w1 } : State).copyOne t st w1 v.number
    | none => s

/-- One word of the fill at the head of the work list. -/
def State.fillHead (s : State) : State :=
  match s.workList with
  | t :: _ =>
    match (s.table t).staged with
    | some st =>
      let w := s.headWork.getD HeadWork.atFill
      match st.sub with
      | .filling .zero => s.fillOne t st w 0
      | .filling (.value v) => s.fillOne t st w v
      | .filling (.copy _) => s.copyStep t st w
      | .filling .store | .opened | .summing _ | .held _ => s
    | none => s
  | [] => s

/-- Whether the head's next word access is granted: no WRITE is between two of its words (R81), and the
arbiter grants the staging engine (R15). -/
def State.headGranted (s : State) : Bool := !s.writeWaits && s.grants .staging

/-- FILL_WORD (R82 to R85): one word of the fill at the head of the work list, where it is granted. -/
def State.fillWord (s : State) : State := if s.headGranted then s.fillHead else s

/-- FILL_WORD. -/
def execFillWord (s : State) : Host.Outcome State Fault Refusal := .next s.fillWord

/-! ## SUMMING_WORD (R88, R89) -/

/-- R88: SUMMING meets a parity error and the commit fails. -/
def State.failSumming (s : State) (t : TableId) (st : Staged) (offset : Nat) : State :=
  (((s.parityReport t st.version.number (offset / Config.pageWords)).releaseStaged
    t).leaveWorkList t).tellWriter t st.session (commitDone t st.version.number .parity)

/-- R90: the swap of a STAGED version that may go ahead, and COMMIT_DONE with OK. -/
def State.swapCommitted (s : State) (t : TableId) (st : Staged) : State :=
  (s.swap t).tellWriter t st.session (commitDone t st.version.number .ok)

/-- R89: the end of SUMMING without a parity error, with the check value computed. -/
def State.endSumming (s : State) (t : TableId) (st : Staged) (holdLimit : Nat) (check : Word) :
    State :=
  if s.issuingSessionHolds t st = false then (s.releaseStaged t).leaveWorkList t
  else
    let s1 := s.leaveWorkList t
    match (s.table t).retiring with
    | none => (s1.setStagedCheck t (some check)).swapCommitted t st
    | some _ =>
      if holdLimit = 0 then
        (s1.setSub t .opened).tellWriter t st.session
          (commitDone t st.version.number .retireBusy)
      else (s1.setStagedCheck t (some check)).setSub t (.held holdLimit)

/-- The progress of a commit that has just become the head: the length is fed (R100). -/
def HeadWork.atSumming (length : Nat) : HeadWork :=
  { offset := 0, check := checkOfLength length, source := none }

/-- One word of a version is read and fed (R88). -/
def State.sumOne (s : State) (t : TableId) (st : Staged) (w : HeadWork) (holdLimit : Nat) : State :=
  let r := s.readGranted .staging st.version.pages w.offset
  if r.2.2 then
    if w.offset + 1 < st.version.length then
      { r.1 with
        headWork := some { w with offset := w.offset + 1, check := checkFeed w.check r.2.1 } }
    else r.1.endSumming t st holdLimit (checkFeed w.check r.2.1)
  else r.1.failSumming t st w.offset

/-- One word of the commit at the head of the work list. -/
def State.sumHead (s : State) : State :=
  match s.workList with
  | t :: _ =>
    match (s.table t).staged with
    | some st =>
      match st.sub with
      | .summing holdLimit =>
        s.sumOne t st (s.headWork.getD (HeadWork.atSumming st.version.length)) holdLimit
      | .filling _ | .opened | .held _ => s
    | none => s
  | [] => s

/-- SUMMING_WORD (R88): one word of the commit at the head of the work list, where it is granted. -/
def State.summingWord (s : State) : State := if s.headGranted then s.sumHead else s

/-- SUMMING_WORD. -/
def execSummingWord (s : State) : Host.Outcome State Fault Refusal := .next s.summingWord

/-! ## HELD (R91, R92) -/

/-- R91: what a retirement notice does to a HELD version; R90 has it act only where the table has no
RETIRING version (log 14). -/
def State.endHold (s : State) (t : TableId) : State :=
  match (s.table t).staged, (s.table t).retiring with
  | some st, none =>
    match st.sub with
    | .held _ =>
      if s.issuingSessionHolds t st then s.swapCommitted t st else s.releaseStaged t
    | .filling _ | .opened | .summing _ => s
  | some _, some _ => s
  | none, _ => s

/-- RETIREMENT_NOTICE (R91): a notice handed on for t is taken. -/
def State.takeNotice (s : State) (t : TableId) : State :=
  if t ∈ s.notices then ({ s with notices := s.notices.erase t } : State).endHold t else s

/-- RETIREMENT_NOTICE. -/
def execRetirementNotice (t : TableId) (s : State) : Host.Outcome State Fault Refusal :=
  .next (s.takeNotice t)

/-- HOLD_DEADLINE (R92). The version may be HELD still while the notice of a retirement already taken is on
its way: the expiry may then be taken before the notice, as R92 has it (log 38). -/
def State.expireHold (s : State) (t : TableId) : State :=
  match (s.table t).staged with
  | some st =>
    match st.sub with
    | .held _ =>
      ((s.setStagedCheck t none).setSub t .opened).tellWriter t st.session
        (commitDone t st.version.number .retireBusy)
    | .filling _ | .opened | .summing _ => s
  | none => s

/-- HOLD_DEADLINE. -/
def execHoldDeadline (t : TableId) (s : State) : Host.Outcome State Fault Refusal :=
  .next (s.expireHold t)

/-! ## Session end (R97) -/

/-- R97: the staging engine takes the end of p's session: the STAGED version of every table that p
writes is released, whatever its sub-state. -/
def State.endStagingOf (s : State) (p : Port) : State :=
  if EndBlock.stagingEngine ∈ s.endsOf p then
    allTables.foldl
      (fun s t => if (s.table t).entry.writer = some p then s.abandonStaged t else s)
      (s.takeEnd p .stagingEngine)
  else s

/-- SESSION_END_STAGING. -/
def execSessionEndStaging (p : Port) (s : State) : Host.Outcome State Fault Refusal :=
  .next (s.endStagingOf p)

end Sys2Proof.Machine
end

