-- ==== Sys2Proof/Machine/ImageStore.lean ====
section
/-! DEFINITION. The image store controller's rows: PERSIST (R116 to R122), the STORE read (R124, R125),
charter writes (R126) and SESSION_END_IMAGE_STORE (R130), with slots, goodness and selection (R112 to
R114, R127). -/

namespace Sys2Proof.Machine

/-! ## Slots (R112 to R114) -/

/-- A table slot of a pair. -/
def TablePair.slot (x : TablePair) : SlotName → TableSlot
  | .a => x.a
  | .b => x.b

/-- A pair with a slot replaced. -/
def TablePair.setSlot (x : TablePair) (name : SlotName) (slot : TableSlot) : TablePair :=
  match name with
  | .a => { x with a := slot }
  | .b => { x with b := slot }

/-- A charter slot of the pair. -/
def CharterPair.slot (x : CharterPair) : SlotName → CharterSlot
  | .a => x.a
  | .b => x.b

/-- The charter pair with a slot replaced. -/
def CharterPair.setSlot (x : CharterPair) (name : SlotName) (slot : CharterSlot) : CharterPair :=
  match name with
  | .a => { x with a := slot }
  | .b => { x with b := slot }

/-- The other slot of a pair. -/
def SlotName.other : SlotName → SlotName
  | .a => .b
  | .b => .a

/-- The word at an offset of a slot's data area; a word not programmed since the erase is a free value
(log 23). -/
def TableSlot.word (x : TableSlot) (offset : Nat) : Word :=
  (x.data[offset]?).getD (Config.unprogrammedWord offset)

/-- The first `length` words of a slot's data area. -/
def TableSlot.words (x : TableSlot) (length : Nat) : List Word := (List.range length).map x.word

/-- The sequence number of a valid slot, none where the slot is not valid. A marker is written after
its header, so a valid slot has one (log 25). -/
def TableSlot.validSequence (x : TableSlot) : Option Nat :=
  if x.marker then some ((x.header.map (·.sequence)).getD 0) else none

/-- R113: the header of a valid slot that is good for table t; none where the slot is not good. -/
def TableSlot.goodHeader (x : TableSlot) (t : TableId) : Option TableHeader :=
  match x.header with
  | some h =>
    if x.marker = true ∧ h.table = t ∧ 1 ≤ h.length ∧ h.length ≤ 4096
        ∧ checkValue h.length (x.words h.length) = h.check then some h
    else none
  | none => none

/-- R114: the valid slots in the order in which the selection tests them: the higher sequence number
first, slot A where the two are equal. -/
def TablePair.candidates (x : TablePair) : List SlotName :=
  match x.a.validSequence, x.b.validSequence with
  | none, none => []
  | some _, none => [.a]
  | none, some _ => [.b]
  | some m, some n => if m < n then [.b, .a] else [.a, .b]

/-- The newest valid image of a pair with its sequence number (R117). -/
def TablePair.newestValid (x : TablePair) : Option (SlotName × Nat) :=
  match x.a.validSequence, x.b.validSequence with
  | none, none => none
  | some m, none => some (.a, m)
  | none, some n => some (.b, n)
  | some m, some n => if m < n then some (.b, n) else some (.a, m)

/-- R113: the record and header of a valid charter slot that is good. -/
def CharterSlot.good (x : CharterSlot) : Option (Charter × CharterHeader) :=
  match x.record, x.header with
  | some c, some h => if x.marker = true ∧ c.checkValue = h.check then some (c, h) else none
  | some _, none => none
  | none, _ => none

/-- The newest good charter: its slot, record and sequence number; slot A where the two are equal
(R114, R126, R127). -/
def CharterPair.newestGood (x : CharterPair) : Option (SlotName × Charter × Nat) :=
  match x.a.good, x.b.good with
  | none, none => none
  | some (c, h), none => some (.a, c, h.sequence)
  | none, some (d, k) => some (.b, d, k.sequence)
  | some (c, h), some (d, k) =>
    if h.sequence < k.sequence then some (.b, d, k.sequence) else some (.a, c, h.sequence)

/-- R117, R126: the target slot and the new sequence number of a write, from the newest slot; none
where the sequence count is exhausted. -/
def writeTarget : Option (SlotName × Nat) → Option (SlotName × Nat)
  | none => some (.a, 1)
  | some (newest, n) =>
    if Config.maxSequence ≤ n then none else some (newest.other, n + 1)

/-- Table t's slot replaced by name. -/
def State.setTableSlot (s : State) (t : TableId) (name : SlotName) (slot : TableSlot) : State :=
  s.setPair t ((s.pair t).setSlot name slot)

/-- A charter slot replaced by name. -/
def State.setCharterSlot (s : State) (name : SlotName) (slot : CharterSlot) : State :=
  { s with charterSlots := s.charterSlots.setSlot name slot }

/-! ## PERSIST (R116) -/

/-- The answer of a PERSIST taken or merged: the queue depth (R116). -/
def persistReply (depth : Nat) (merged : Bool) : Reply :=
  replyAccepted [byteOf depth] { merged := merged }

/-- Whether the queue's head is a started PERSIST of t (R116 check 9). -/
def State.persistStarted (s : State) (t : TableId) : Bool :=
  match s.imageQueue with
  | e :: _ => s.headStarted && e.isPersist t
  | [] => false

/-- Checks 7 to 11 of R116. -/
def persistTable (p : Port) (t : TableId) : Owner := fun s =>
  if (s.table t).current.any Version.damaged then refusing s .damaged
  else if s.supply = .low then refusing s .supplyLow
  else if s.persistStarted t then refusing s .imageBusy
  else if s.imageQueue.any (·.isPersist t) then
    answering s (persistReply s.imageQueue.length true)
  else if Config.queueCapacity ≤ s.imageQueue.length then refusing s .queueFull
  else
    let entry : QueueEntry := { op := .persist t, port := p, session := (s.session p).number }
    answering { s with imageQueue := s.imageQueue ++ [entry] }
      (persistReply (s.imageQueue.length + 1) false)

/-- PERSIST's work (R116). -/
def persistOwner (p : Port) (table : Byte) : Owner :=
  writerTable p table true fun t s =>
    if (s.table t).entry.persistent = false then refusing s .notPersistent
    else persistTable p t s

/-- PERSIST. -/
def execPersist (p : Port) (table : Byte) (s : State) : Host.Outcome State Fault Refusal :=
  .next (s.serve p (.persist table) (persistOwner p table))

/-! ## The persist in flight (R117 to R119, R122) -/

/-- PERSIST_DONE (R122). -/
def persistDone (t : TableId) (version : Nat) (result : Status) (extra : Nat) : Event :=
  { kind := .persistDone, table := some t, version := version, result := result, extra := extra }

/-- The head leaves the queue, and PERSIST_DONE is entered for the session it recorded (R122). -/
def State.endPersist (s : State) (e : QueueEntry) (done : Event) : State :=
  s.leaveQueue.enterEvent e.port (some e.session) done

/-- A persist ends with its pin placed: unpin, then the entry leaves, then the event (R118, R119). -/
def State.finishPersist (s : State) (job : PersistJob) (result : Status) (extra : Nat) : State :=
  match s.imageQueue with
  | e :: _ =>
    (s.unpin job.table job.number).endPersist e (persistDone job.table job.number result extra)
  | [] => s

/-- R117: a PERSIST of t starts, e being its entry. -/
def State.startPersist (s : State) (e : QueueEntry) (t : TableId) : State :=
  match (s.table t).current with
  | none => s.endPersist e (persistDone t 0 .empty 0)
  | some v =>
    if v.damaged then s.endPersist e (persistDone t v.number .damaged 0)
    else
      match s.pinCurrent t with
      | some (v, s1) =>
        match writeTarget (s1.pair t).newestValid with
        | some (target, sequence) =>
          { s1 with
            imageWork := .persistErasing
              { table := t, number := v.number, length := v.length, pages := v.pages
                check := v.check, target := target, sequence := sequence } }
        | none =>
          (s1.unpin t v.number).endPersist e (persistDone t v.number .writeFailed 0)
      | none => s

/-- PERSIST_START (R115, R117): a waiting PERSIST head starts when the supply state is OK. -/
def State.persistStart (s : State) : State :=
  if s.headStarted = true ∨ s.supply = .low then s
  else
    match s.imageQueue with
    | e :: _ =>
      match e.op with
      | .persist t => s.startPersist e t
      | .storeRead _ | .charterWrite _ => s
    | [] => s

/-- PERSIST_ERASE (R118 step 1): the erase of the target slot completes. -/
def State.persistErase (s : State) (verified : Bool) : State :=
  match s.imageWork with
  | .persistErasing job =>
    let s1 := s.setTableSlot job.table job.target TableSlot.erased
    if verified then { s1 with imageWork := .persistProgramming job 0 }
    else s1.finishPersist job .writeFailed 0
  | .idle | .persistProgramming _ _ | .persistMarking _ | .selecting _ _ | .reading _
  | .charterErasing _ | .charterProgramming _ => s

/-- A slot with the next word of its data area programmed. -/
def TableSlot.program (x : TableSlot) (w : Word) : TableSlot := { x with data := x.data ++ [w] }

/-- One word of the pinned version is read and programmed (R118 step 2, R119). -/
def State.programOne (s : State) (job : PersistJob) (offset : Nat) (verified : Bool) : State :=
  let r := s.readGranted .imageStore job.pages offset
  if r.2.2 then
    let s1 := r.1.setTableSlot job.table job.target
      (((r.1.pair job.table).slot job.target).program r.2.1)
    if verified then
      { s1 with
        imageWork :=
          if offset + 1 < job.length then .persistProgramming job (offset + 1)
          else .persistMarking job }
    else s1.finishPersist job .writeFailed 0
  else
    (r.1.parityReport job.table job.number (offset / Config.pageWords)).finishPersist job .parity 0

/-- PERSIST_PROGRAM_WORD (R118 step 2), where the arbiter grants the controller (R15). -/
def State.persistProgramWord (s : State) (verified : Bool) : State :=
  match s.imageWork with
  | .persistProgramming job offset =>
    if s.grants .imageStore then s.programOne job offset verified else s
  | .idle | .persistErasing _ | .persistMarking _ | .selecting _ _ | .reading _
  | .charterErasing _ | .charterProgramming _ => s

/-- The header a persist writes (R118 step 3). -/
def PersistJob.header (job : PersistJob) : TableHeader :=
  { table := job.table, sequence := job.sequence, version := job.number, length := job.length
    check := job.check.getD 0 }

/-- PERSIST_MARKING (R118 steps 3 to 5): header and marker; a marker that fails its verify is not
present (R113). -/
def State.persistMark (s : State) (verified : Bool) : State :=
  match s.imageWork with
  | .persistMarking job =>
    let slot := (s.pair job.table).slot job.target
    let s1 := s.setTableSlot job.table job.target
      { slot with header := some job.header, marker := verified }
    if verified then s1.finishPersist job .ok (pagesFor job.length)
    else s1.finishPersist job .writeFailed 0
  | .idle | .persistErasing _ | .persistProgramming _ _ | .selecting _ _ | .reading _
  | .charterErasing _ | .charterProgramming _ => s

/-- PERSIST_START. -/
def execPersistStart (s : State) : Host.Outcome State Fault Refusal := .next s.persistStart

/-- PERSIST_ERASE. -/
def execPersistErase (verified : Bool) (s : State) : Host.Outcome State Fault Refusal :=
  .next (s.persistErase verified)

/-- PERSIST_PROGRAM_WORD. -/
def execPersistProgramWord (verified : Bool) (s : State) : Host.Outcome State Fault Refusal :=
  .next (s.persistProgramWord verified)

/-- PERSIST_MARKING. -/
def execPersistMarking (verified : Bool) (s : State) : Host.Outcome State Fault Refusal :=
  .next (s.persistMark verified)

/-! ## The STORE read (R124, R125) -/

/-- The ending of a failed STORE read: the entry leaves the queue, the version is released, FILL_DONE
is entered (R124). -/
def State.failStoreRead (s : State) (t : TableId) (result : Status) : State :=
  match (s.table t).staged with
  | some st =>
    (s.leaveQueue.releaseStaged t).tellWriter t st.session (fillDone t st.version.number result)
  | none => s.leaveQueue

/-- STORE_READ_START (R124, R115): a waiting STORE_READ head starts, whatever the supply state, and
the valid slots of the pair are to be verified in order. -/
def State.storeReadStart (s : State) : State :=
  if s.headStarted then s
  else
    match s.imageQueue with
    | e :: _ =>
      match e.op with
      | .storeRead t => { s with imageWork := .selecting t (s.pair t).candidates }
      | .persist _ | .charterWrite _ => s
    | [] => s

/-- A STAGED version takes its length and pages at the start of its STORE read (R22). -/
def Staged.begun (st : Staged) (length : Nat) (pages : List Nat) : Staged :=
  { st with version := { st.version with length := length, pages := pages } }

/-- R124 past the selection: the chosen slot's length against the table's maximum, the allocation, and
the length and pages handed to the directory. -/
def State.beginStoreRead (s : State) (t : TableId) (st : Staged) (name : SlotName)
    (h : TableHeader) : State :=
  if (s.table t).entry.maxPages * Config.pageWords < h.length then s.failStoreRead t .tooLong
  else
    match s.allocate (pagesFor h.length) with
    | some (pages, s1) =>
      { s1.setTable t { s1.table t with staged := some (st.begun h.length pages) } with
        imageWork := .reading
          { table := t, slot := name, header := h, offset := 0
            register := checkOfLength h.length } }
    | none => s.failStoreRead t .noSpace

/-- Whether a table's STAGED version is a STORE fill whose read has not begun (R79). -/
def Staged.awaitsStore (st : Staged) : Bool :=
  decide (st.sub = .filling .store) && st.version.pages.isEmpty

/-- SLOT_VERIFY_READ (R114, R124): one verify read completes. -/
def State.slotVerifyRead (s : State) : State :=
  match s.imageWork with
  | .selecting t candidates =>
    match candidates with
    | [] => s.failStoreRead t .noImage
    | name :: rest =>
      match ((s.pair t).slot name).goodHeader t with
      | some h =>
        match (s.table t).staged with
        | some st => if st.awaitsStore then s.beginStoreRead t st name h else s
        | none => s
      | none =>
        if rest.isEmpty then s.failStoreRead t .badImage
        else { s with imageWork := .selecting t rest }
  | .idle | .persistErasing _ | .persistProgramming _ _ | .persistMarking _ | .reading _
  | .charterErasing _ | .charterProgramming _ => s

/-- R125: a complete STORE read: OPEN, the entry leaves, FILL_DONE with OK. -/
def State.completeStoreRead (s : State) (t : TableId) (st : Staged) : State :=
  ((s.setSub t .opened).leaveQueue).tellWriter t st.session (fillDone t st.version.number .ok)

/-- One word of a STORE read is written and fed, and after the last the check values are compared
(R125). -/
def State.storeReadOne (s : State) (job : StoreReadJob) (st : Staged) (w : Word) : State :=
  let s1 := s.writeGranted .imageStore st.version.pages job.offset w
  let register := checkFeed job.register w
  if job.offset + 1 < job.header.length then
    { s1 with imageWork := .reading { job with offset := job.offset + 1, register := register } }
  else if register = job.header.check then s1.completeStoreRead job.table st
  else s1.failStoreRead job.table .badImage

/-- STORE_READ_WORD (R125): one word of the copy read, where the arbiter grants the controller (R15);
`disturbed` is the word read where the read does not give the stored one (log 22). -/
def State.storeReadWord (s : State) (disturbed : Option Word) : State :=
  match s.imageWork with
  | .reading job =>
    match (s.table job.table).staged with
    | some st =>
      if s.grants .imageStore then
        s.storeReadOne job st
          (disturbed.getD (((s.pair job.table).slot job.slot).word job.offset))
      else s
    | none => s
  | .idle | .persistErasing _ | .persistProgramming _ _ | .persistMarking _ | .selecting _ _
  | .charterErasing _ | .charterProgramming _ => s

/-- STORE_READ_START. -/
def execStoreReadStart (s : State) : Host.Outcome State Fault Refusal := .next s.storeReadStart

/-- SLOT_VERIFY_READ. -/
def execSlotVerifyRead (s : State) : Host.Outcome State Fault Refusal := .next s.slotVerifyRead

/-- STORE_READ_WORD. -/
def execStoreReadWord (disturbed : Option Word) (s : State) : Host.Outcome State Fault Refusal :=
  .next (s.storeReadWord disturbed)

/-! ## Charter writes (R126) -/

/-- A charter write ends: the entry leaves the queue and the result is handed to the part
controller. -/
def State.endCharterWrite (s : State) (ok : Bool) (sequence : Option Nat) : State :=
  match s.imageQueue with
  | e :: _ =>
    { s.leaveQueue with
      charterResults := s.charterResults
        ++ [{ ok := ok, sequence := sequence, port := e.port, session := e.session }] }
  | [] => s

/-- CHARTER_WRITE_START (R126, R115): a waiting CHARTER_WRITE head starts when the supply state is
OK; with the sequence count exhausted it ends with WRITE_FAILED. -/
def State.charterWriteStart (s : State) : State :=
  if s.headStarted = true ∨ s.supply = .low then s
  else
    match s.imageQueue with
    | e :: _ =>
      match e.op with
      | .charterWrite record =>
        match writeTarget (s.charterSlots.newestGood.map (fun x => (x.1, x.2.2))) with
        | some (target, sequence) =>
          { s with
            imageWork := .charterErasing
              { record := record, target := target, sequence := sequence } }
        | none => s.endCharterWrite false none
      | .persist _ | .storeRead _ => s
    | [] => s

/-- CHARTER_WRITE_ERASE (R126). -/
def State.charterWriteErase (s : State) (verified : Bool) : State :=
  match s.imageWork with
  | .charterErasing job =>
    let s1 := s.setCharterSlot job.target CharterSlot.erased
    if verified then { s1 with imageWork := .charterProgramming job }
    else s1.endCharterWrite false (some job.sequence)
  | .idle | .persistErasing _ | .persistProgramming _ _ | .persistMarking _ | .selecting _ _
  | .reading _ | .charterProgramming _ => s

/-- The slot a charter write leaves (R113, R126): the record with its assigned sequence number, the
header, and the marker where every verify passed. -/
def CharterJob.slot (job : CharterJob) (verified : Bool) : CharterSlot :=
  { record := some { job.record with sequence := job.sequence }
    header := some { sequence := job.sequence, check := job.record.checkValue }
    marker := verified }

/-- CHARTER_WRITE_COMPLETION (R126). -/
def State.charterWriteCompletion (s : State) (verified : Bool) : State :=
  match s.imageWork with
  | .charterProgramming job =>
    (s.setCharterSlot job.target (job.slot verified)).endCharterWrite verified
      (some job.sequence)
  | .idle | .persistErasing _ | .persistProgramming _ _ | .persistMarking _ | .selecting _ _
  | .reading _ | .charterErasing _ => s

/-- CHARTER_WRITE_START. -/
def execCharterWriteStart (s : State) : Host.Outcome State Fault Refusal :=
  .next s.charterWriteStart

/-- CHARTER_WRITE_ERASE. -/
def execCharterWriteErase (verified : Bool) (s : State) : Host.Outcome State Fault Refusal :=
  .next (s.charterWriteErase verified)

/-- CHARTER_WRITE_COMPLETION. -/
def execCharterWriteCompletion (verified : Bool) (s : State) : Host.Outcome State Fault Refusal :=
  .next (s.charterWriteCompletion verified)

/-! ## Session end (R130) -/

/-- Whether the head in flight is stopped by the end of p's session: a STORE_READ of p (R130). -/
def QueueEntry.stopsWith (e : QueueEntry) (p : Port) : Bool :=
  match e.op with
  | .storeRead _ => decide (e.port = p)
  | .persist _ | .charterWrite _ => false

/-- R130: the entries of p that have not started are withdrawn; a STORE_READ of p in flight is
stopped; a PERSIST or CHARTER_WRITE in flight goes on. -/
def State.withdrawPort (s : State) (p : Port) : State :=
  match s.imageQueue with
  | [] => s
  | e :: rest =>
    if s.headStarted then
      if e.stopsWith p then
        { s with imageQueue := rest.filter (fun x => x.port ≠ p), imageWork := .idle }
      else { s with imageQueue := e :: rest.filter (fun x => x.port ≠ p) }
    else { s with imageQueue := (e :: rest).filter (fun x => x.port ≠ p) }

/-- R130: the image store controller takes the end of p's session. -/
def State.endImageStore (s : State) (p : Port) : State :=
  if EndBlock.imageStore ∈ s.endsOf p then (s.takeEnd p .imageStore).withdrawPort p else s

/-- SESSION_END_IMAGE_STORE. -/
def execSessionEndImageStore (p : Port) (s : State) : Host.Outcome State Fault Refusal :=
  .next (s.endImageStore p)

end Sys2Proof.Machine
end

