-- ==== Sys2Proof/Machine/Scrubber.lean ====
section
/-! DEFINITION. The scrubber's rows: SCRUB_PERIOD_EXPIRY (R104) and SCRUB_WORD (R105 to R109), with the
start and the stop of its timer (R104, R110), and the rows that take a report, PARITY_REPORT (R34) and
CHECK_REPORT (R35), after which a visit that sent it ends (R107, R108). -/

namespace Sys2Proof.Machine

/-- The visit lookup (R105): a visit of the CURRENT version of t, where it is not DAMAGED. -/
def TableRecord.visit (r : TableRecord) (t : TableId) : Option Visit :=
  match r.current with
  | some v =>
    if v.damage = .clear then
      some
        { table := t, number := v.number, length := v.length, pages := v.pages, check := v.check
          offset := 0, register := checkOfLength v.length }
    else none
  | none => none

/-- The first visit that the lookups of these ids give, in order. -/
def State.firstVisit (s : State) : List TableId → Option Visit
  | [] => none
  | t :: rest =>
    match (s.table t).visit t with
    | some v => some v
    | none => s.firstVisit rest

/-- A scrubber on a visit: the id it examines is the visited one (R105). -/
def Scrubber.visiting (x : Scrubber) (v : Visit) : Scrubber :=
  { x with running := true, nextId := v.table, visit := some v }

/-- A scrubber after the end of a pass that owes none (R104, R105). -/
def Scrubber.passEnded (x : Scrubber) : Scrubber :=
  { x with running := false, due := false, nextId := 0, visit := none }

/-- A pass starts at id 0 (R104, R105). -/
def State.startPass (s : State) : State :=
  match s.firstVisit allTables with
  | some v => { s with scrub := s.scrub.visiting v }
  | none => { s with scrub := s.scrub.passEnded }

/-- A visit of t ends: the next ids are examined, and after id 31 the pass ends; a pass that is due then
starts at once (R104, R105). -/
def State.endVisit (s : State) (t : TableId) : State :=
  match s.firstVisit (allTables.filter (fun u => t < u)) with
  | some v => { s with scrub := s.scrub.visiting v }
  | none =>
    if s.scrub.due then ({ s with scrub := { s.scrub with due := false } } : State).startPass
    else { s with scrub := s.scrub.passEnded }

/-- SCRUB_PERIOD_EXPIRY (R104): the timer restarts with the same period; a pass starts or becomes
due. -/
def State.expireScrubPeriod (s : State) : State :=
  match s.scrub.timer with
  | some _ =>
    if s.scrub.running then { s with scrub := { s.scrub with due := true } } else s.startPass
  | none => s

/-- Whether the lookup at a grant finds the visited version CURRENT and not DAMAGED (R106). -/
def State.visitHolds (s : State) (v : Visit) : Bool :=
  match (s.table v.table).current with
  | some c => decide (c.number = v.number) && decide (c.damage = .clear)
  | none => false

/-- A report is sent to the directory; the visit ends when it has been taken (R107, R108). -/
def State.sendReport (s : State) (r : Report) : State := { s with reports := s.reports ++ [r] }

/-- The scrubber's visit in another place. -/
def State.setVisit (s : State) (v : Visit) : State :=
  { s with scrub := { s.scrub with visit := some v } }

/-- A visit with one more good word fed, its next offset advanced (R106). -/
def Visit.fed (v : Visit) (w : Word) : Visit :=
  { v with offset := v.offset + 1, register := checkFeed v.register w }

/-- R107: the comparison after the last word, with the recomputed check value in the running register. -/
def State.compareVisit (s : State) (v : Visit) : State :=
  if v.check = some v.register then s.endVisit v.table
  else s.sendReport (.check v.table v.number)

/-- One grant of the scrubber's visit (R106 to R109); the arbiter's pointer stays (R16). -/
def State.scrubOne (s : State) (v : Visit) : State :=
  if s.visitHolds v then
    let cell := s.versionWord v.pages v.offset
    if oddOnes cell then
      let fed := v.fed (valueOf cell)
      if fed.offset < v.length then s.setVisit fed else (s.setVisit fed).compareVisit fed
    else s.sendReport (.parity v.table v.number (v.offset / Config.pageWords))
  else s.endVisit v.table

/-- SCRUB_WORD (R106 to R109): only while no ring requestor waits (R16), and not while a report of the
visit is on its way (R107, R108). -/
def State.scrubWord (s : State) : State :=
  match s.scrub.visit with
  | some v => if s.waiting = [] ∧ s.reports = [] then s.scrubOne v else s
  | none => s

/-- The visit in hand ends, where there is one. -/
def State.endReportedVisit (s : State) : State :=
  match s.scrub.visit with
  | some v => s.endVisit v.table
  | none => s

/-- A report is taken at the directory, applied or discarded, and is no longer on its way; the visit that
sent it then ends (R5, R107, R108, log 13). -/
def State.takeScrubReport (s : State) (r : Report) : State :=
  if r ∈ s.reports then (s.takeReport r).endReportedVisit else s.takeReport r

/-- The scrubber at an entry to SERVICE under this scrub period (R104). -/
def Scrubber.atService (period : Nat) : Scrubber :=
  { Scrubber.fresh with timer := if 0 < period then some period else none }

/-- PARITY_REPORT. -/
def execParityReport (t : TableId) (version page : Nat) (s : State) :
    Host.Outcome State Fault Refusal :=
  .next (s.takeScrubReport (.parity t version page))

/-- CHECK_REPORT. -/
def execCheckReport (t : TableId) (version : Nat) (s : State) :
    Host.Outcome State Fault Refusal :=
  .next (s.takeScrubReport (.check t version))

/-- SCRUB_PERIOD_EXPIRY. -/
def execScrubPeriodExpiry (s : State) : Host.Outcome State Fault Refusal :=
  .next s.expireScrubPeriod

/-- SCRUB_WORD. -/
def execScrubWord (s : State) : Host.Outcome State Fault Refusal := .next s.scrubWord

end Sys2Proof.Machine
end

