-- ==== Sys2Proof/Machine/Reset.lean ====
section
/-! DEFINITION. The part resets (R14, R39, R62, R74, R98, R103, R130, R144, R154, R167, R171), the
entry to LOADING, and the rows POWER_ON, PIN_RESET, SUPPLY_RESET, RESET_RELEASE (R156),
CHARTER_SELECTION (R127) and LOAD_TABLE (R128). -/

namespace Sys2Proof.Machine

/-! ## What a part reset does to each block -/

/-- The departure record a part reset writes for an open session (R141). -/
def ResetKind.departure : ResetKind → Departure
  | .powerOn => .powerOn
  | .pin => .pinReset
  | .supply => .supplyReset
  | .charterRestart => .charterRestart

/-- A port engine at a part reset (R171). The response that an open frame shifts out lasts through a
charter restart, and ends in RESET, where data out is high impedance (R168, log 20). The port-break
measurement of a low period goes on (R173, log 19). -/
def PortEngine.atReset (e : PortEngine) (k : ResetKind) : PortEngine :=
  { csLow := e.csLow
    rx := if e.csLow then .discarding else .idle
    metPending := false
    shiftOut := if k = .charterRestart then e.shiftOut else none
    buffer := Response.notReady
    inProgress := none
    breakTimer := e.breakTimer }

/-- A port's session fields at a part reset (R144, R154). -/
def Session.atReset (x : Session) (k : ResetKind) : Session :=
  match k with
  | .powerOn => Session.fresh
  | .pin | .supply | .charterRestart =>
    { x with
      isOpen := false, leaseTimer := none, mask := 0xFF
      departure := if x.isOpen then k.departure else x.departure }

/-- A table record at a part reset (R39): no version; the other fields stay until CHARTER_SELECTION
(log 30), but for power-on. -/
def TableRecord.atReset (r : TableRecord) (k : ResetKind) : TableRecord :=
  if k = .powerOn then TableRecord.fresh TableEntry.default
  else { r with current := none, staged := none, retiring := none }

/-- A slot without its completion marker. -/
def TableSlot.unmarked (x : TableSlot) : TableSlot := { x with marker := false }

/-- A charter slot without its completion marker. -/
def CharterSlot.unmarked (x : CharterSlot) : CharterSlot := { x with marker := false }

/-- R123: the operation in flight is abandoned: a write leaves its target slot without a marker
(log 31). -/
def State.abandonImageWork (s : State) : State :=
  match s.imageWork with
  | .persistErasing job | .persistProgramming job _ | .persistMarking job =>
    s.setTableSlot job.table job.target ((s.pair job.table).slot job.target).unmarked
  | .charterErasing job | .charterProgramming job =>
    s.setCharterSlot job.target (s.charterSlots.slot job.target).unmarked
  | .idle | .selecting _ _ | .reading _ => s

/-- The part controller at a part reset (R155): RESET, or LOADING at a charter restart (R167); the
charter in force and the charter-absent flag stay until LOADING, but for power-on (log 9). -/
def PartController.atReset (x : PartController) (k : ResetKind) : PartController :=
  match k with
  | .powerOn => PartController.fresh
  | .pin | .supply =>
    { x with
      state := .reset, maintPort := none, working := none, committed := false, loading := .idle }
  | .charterRestart =>
    { x with
      state := .loading, maintPort := none, working := none, committed := false
      loading := .charter }

/-- The supply state at a part reset: a supply below the RESET level lies below WARN (R159, log 10). -/
def SupplyState.atReset (x : SupplyState) (k : ResetKind) : SupplyState :=
  match k with
  | .powerOn | .supply => .low
  | .pin | .charterRestart => x

/-- A part reset at every block. -/
def State.partReset (s : State) (k : ResetKind) : State :=
  { s.abandonImageWork with
    engines := mapVector (fun e => e.atReset k) s.engines
    sessions := mapVector (fun x => x.atReset k) s.sessions
    ends := Vector.replicate 4 []
    events := Vector.replicate 4 EventQueue.fresh
    cursors := Vector.replicate 4 (Vector.replicate 4 none)
    saveStacks := Vector.replicate 4 []
    mem := []
    memEpoch := s.memEpoch + 1
    freePool := List.range Config.pageCount
    quarantine := []
    arbiter := .portEngine 0
    tables := mapVector (fun r => r.atReset k) s.tables
    notices := []
    reports := []
    workList := []
    headWork := none
    scrub := Scrubber.fresh
    imageQueue := []
    imageWork := .idle
    charterResults := []
    supply := s.supply.atReset k
    part := s.part.atReset k }

/-- R167: a charter restart. -/
def State.charterRestart (s : State) : State := s.partReset .charterRestart

/-! ## RESET (R156) -/

/-- PIN_RESET and SUPPLY_RESET: from any state but RESET; a second cause in RESET changes nothing. -/
def State.enterReset (s : State) (k : ResetKind) : State :=
  if s.part.state = .reset then s else s.partReset k

/-- A port engine at the entry to LOADING (R168). With the chip select low it is DISCARDING and drives no
data out until the rise: R168 and the pin table of section 11.7 name high impedance only for chip select
high and for RESET, so that this low period drives none is the model's choice (log 20). -/
def PortEngine.atRelease (e : PortEngine) : PortEngine :=
  { e with rx := if e.csLow then .discarding else .idle }

/-- RESET_RELEASE (R156, R159): RESET_N is high and the supply stands at this level; above 2.65 V the
part enters LOADING, with the supply state LOW below 2.95 V. -/
def State.releaseReset (s : State) (millivolts : Nat) : State :=
  if s.part.state = .reset ∧ Config.resetRisingMillivolts < millivolts then
    { s with
      engines := mapVector PortEngine.atRelease s.engines
      supply := if millivolts < Config.warnRisingMillivolts then .low else .ok
      part := { s.part with state := .loading, loading := .charter } }
  else s

/-- POWER_ON. -/
def execPowerOn (s : State) : Host.Outcome State Fault Refusal := .next (s.partReset .powerOn)

/-- PIN_RESET. -/
def execPinReset (s : State) : Host.Outcome State Fault Refusal := .next (s.enterReset .pin)

/-- SUPPLY_RESET. -/
def execSupplyReset (s : State) : Host.Outcome State Fault Refusal := .next (s.enterReset .supply)

/-- RESET_RELEASE. -/
def execResetRelease (millivolts : Nat) (s : State) : Host.Outcome State Fault Refusal :=
  .next (s.releaseReset millivolts)

/-! ## LOADING (R127 to R129, R157) -/

/-- The charter that LOADING puts in force, and the charter-absent flag (R127, R157). -/
def CharterPair.inForce (x : CharterPair) : Charter × Bool :=
  match x.newestGood with
  | some (_, c, sequence) => ({ c with sequence := sequence }, false)
  | none => (Charter.default, true)

/-- CHARTER_SELECTION (R127, R157 steps 1 and 2): the charter in force, and the table records rebuilt
from it (R39). -/
def State.selectCharter (s : State) : State :=
  if s.part.state = .loading ∧ s.part.loading = .charter then
    let chosen := s.charterSlots.inForce
    { s with
      tables := mapVector TableRecord.fresh chosen.1.tables
      part :=
        { s.part with
          charter := chosen.1, charterAbsent := chosen.2, loading := .table 0 } }
  else s

/-- R114: the first good slot of these, in order, with its header. -/
def TablePair.firstGood (x : TablePair) (t : TableId) : List SlotName →
    Option (SlotName × TableHeader)
  | [] => none
  | name :: rest =>
    match (x.slot name).goodHeader t with
    | some h => some (name, h)
    | none => x.firstGood t rest

/-- The words of a copy read (R128): the slot's, but for the offsets at which the read was disturbed
(log 22). -/
def copyWords (slot : TableSlot) (length : Nat) (disturbed : List (Nat × Word)) : List Word :=
  (List.range length).map fun i =>
    match disturbed.find? (fun d => d.1 = i) with
    | some d => d.2
    | none => slot.word i

/-- The CURRENT version of a loaded table (R21, R128). -/
def TableHeader.loadedVersion (h : TableHeader) (pages : List Nat) : Version :=
  { number := h.version, length := h.length, pages := pages, check := some h.check, pins := 0
    damage := .clear, faulty := [] }

/-- A load result recorded for a table that is not LOADED. -/
def State.loadFailed (s : State) (t : TableId) (result : LoadResult) : State :=
  s.setTable t { s.table t with loadResult := result }

/-- The copy of a chosen image into allocated pages, and its comparison (R128). -/
def State.copyImage (s : State) (t : TableId) (h : TableHeader) (pages : List Nat)
    (words : List Word) : State :=
  let s1 := s.writeWords .imageStore pages 0 words
  if checkValue h.length words = h.check then
    s1.setTable t
      { s1.table t with
        current := some (h.loadedVersion pages)
        nextVersion := nextNumber h.version
        loadResult := .loaded }
  else (s1.releasePages pages []).loadFailed t .badImage

/-- R128: the load of one table id. -/
def State.loadOne (s : State) (t : TableId) (disturbed : List (Nat × Word)) : State :=
  let e := (s.table t).entry
  if e.defined = false ∨ e.persistent = false then s.loadFailed t .notPersistent
  else if (s.pair t).candidates = [] then s.loadFailed t .noImage
  else
    match (s.pair t).firstGood t (s.pair t).candidates with
    | none => s.loadFailed t .badImage
    | some (name, h) =>
      if e.maxPages * Config.pageWords < h.length then s.loadFailed t .tooLong
      else
        match s.allocate (pagesFor h.length) with
        | some (pages, s1) =>
          s1.copyImage t h pages (copyWords ((s.pair t).slot name) h.length disturbed)
        | none => s.loadFailed t .noSpace

/-- The part enters SERVICE, or UNCHARTERED where the charter is absent; the scrubber starts anew in
SERVICE (R104, R157 step 4, R158, R166). -/
def State.enterService (s : State) : State :=
  if s.part.charterAbsent then
    { s with
      scrub := Scrubber.fresh
      part := { s.part with state := .unchartered, loading := .idle } }
  else
    { s with
      scrub := Scrubber.atService s.part.charter.scrubPeriod
      part := { s.part with state := .service, loading := .idle } }

/-- After a table id, LOADING goes on with the next, and ends after 31 (R128, R129). -/
def State.loadNext (s : State) (t : TableId) : State :=
  if h : t.val + 1 < 32 then
    { s with part := { s.part with loading := .table ⟨t.val + 1, h⟩ } }
  else s.enterService

/-- LOAD_TABLE (R128). -/
def State.loadTable (s : State) (disturbed : List (Nat × Word)) : State :=
  if s.part.state = .loading then
    match s.part.loading with
    | .table t => (s.loadOne t disturbed).loadNext t
    | .idle | .charter => s
  else s

/-- CHARTER_SELECTION. -/
def execCharterSelection (s : State) : Host.Outcome State Fault Refusal := .next s.selectCharter

/-- LOAD_TABLE. -/
def execLoadTable (disturbed : List (Nat × Word)) (s : State) :
    Host.Outcome State Fault Refusal :=
  .next (s.loadTable disturbed)

end Sys2Proof.Machine
end

