-- ==== Sys2Proof/Machine/Part.lean ====
section
/-! DEFINITION. The supply monitor's rows SUPPLY_STATE_LOW and SUPPLY_STATE_OK (R159), and maintenance:
MAINT_ENTER (R161), CHARTER_READ and CHARTER_WRITE (R163), CHARTER_COMMIT and CHARTER_WRITE_RESULT
(R164), MAINT_EXIT (R165), MAINTENANCE_SESSION_END (R166). -/

namespace Sys2Proof.Machine

/-! ## Supply monitor (R159) -/

/-- The SUPPLY event of a change (R145, R159). -/
def supplyEvent (x : SupplyState) : Event :=
  { kind := .supply, table := none, version := 0, result := .ok, extra := x.code }

/-- A change of the supply state to x: one SUPPLY event for every port with an open session. No change
where the state is x already. -/
def State.changeSupply (s : State) (x : SupplyState) : State :=
  if s.supply = x then s
  else ({ s with supply := x } : State).enterEvents allPorts (supplyEvent x)

/-- SUPPLY_STATE_LOW. -/
def execSupplyStateLow (s : State) : Host.Outcome State Fault Refusal := .next (s.changeSupply .low)

/-- SUPPLY_STATE_OK. -/
def execSupplyStateOk (s : State) : Host.Outcome State Fault Refusal := .next (s.changeSupply .ok)

/-! ## MAINT_ENTER (R161) -/

/-- Whether a port other than p has an open session. -/
def State.otherSessionOpen (s : State) (p : Port) : Bool :=
  allPorts.any (fun q => decide (q ≠ p) && (s.session q).isOpen)

/-- Whether any table has a STAGED version. -/
def State.anyStaged (s : State) : Bool := allTables.any (fun t => (s.table t).staged.isSome)

/-- The reports on their way are taken at the directory (R110, log 15). -/
def State.takeReports (s : State) : State := s.reports.foldl (fun s r => s.takeReport r) s

/-- MAINT_ENTER's step once every check has passed (R161, R110). -/
def State.enterMaintenance (s : State) (p : Port) : State :=
  { s.takeReports with
    scrub := Scrubber.fresh
    part :=
      { s.part with
        state := .maintenance, maintPort := some p, working := some s.part.charter
        committed := false } }

/-- MAINT_ENTER's work (R161). -/
def maintEnterOwner (p : Port) : Owner := fun s =>
  if s.part.state = .maintenance then refusing s .maintenance
  else if (s.part.charter.ports[p]).maintenance = false then refusing s .denied
  else if s.otherSessionOpen p then refusing s .sessionsOpen
  else if s.imageQueue ≠ [] then refusing s .imageBusy
  else if s.anyStaged then refusing s .stageExists
  else answering (s.enterMaintenance p) (replyOk [])

/-- MAINT_ENTER. -/
def execMaintEnter (p : Port) (s : State) : Host.Outcome State Fault Refusal :=
  .next (s.serve p .maintEnter (maintEnterOwner p))

/-! ## Charter requests (R162 to R164) -/

/-- R162: the charter requests are served only to the maintenance session in MAINTENANCE, with the
working copy; DENIED otherwise. -/
def withWorkingCopy (p : Port) (work : Charter → State → State × Option Reply) : Owner := fun s =>
  if s.part.state = .maintenance ∧ s.part.maintPort = some p then
    match s.part.working with
    | some c => work c s
    | none => (s, none)
  else refusing s .denied

/-- The five field bytes of a charter entry; the part entry shows this sequence number (R163). -/
def Charter.entryBytes (c : Charter) (sequence : Nat) : EntryName → List Byte
  | .table t => (c.tables[t]).bytes
  | .port p => (c.ports[p]).bytes
  | .part => partEntryBytes c.scrubPeriod sequence

/-- CHARTER_READ's work (R163). -/
def charterReadOwner (p : Port) (entry : Byte) : Owner := withWorkingCopy p fun c s =>
  match entryOperand entry with
  | some name =>
    answering s
      (replyOk ([entry, boolByte s.part.committed]
        ++ c.entryBytes s.part.charter.sequence name))
  | none => refusing s .range

/-- A charter with one entry replaced by these field bytes; none where a field is out of range
(R160, R163). -/
def Charter.replaceEntry (c : Charter) (name : EntryName) (f0 f1 f2 f3 f4 : Byte) :
    Option Charter :=
  match name with
  | .table t =>
    match tableEntryOperand f0 f1 f2 f3 f4 with
    | some e => some { c with tables := c.tables.set t e }
    | none => none
  | .port q =>
    match portEntryOperand f0 f1 f2 f3 with
    | some e => some { c with ports := c.ports.set q e }
    | none => none
  | .part => some { c with scrubPeriod := f0.toNat }

/-- The state with the working copy replaced. -/
def State.setWorking (s : State) (c : Option Charter) : State :=
  { s with part := { s.part with working := c } }

/-- CHARTER_WRITE's work (R163). -/
def charterWriteOwner (p : Port) (entry f0 f1 f2 f3 f4 : Byte) : Owner :=
  withWorkingCopy p fun c s =>
    match entryOperand entry with
    | some name =>
      match c.replaceEntry name f0 f1 f2 f3 f4 with
      | some c1 => answering (s.setWorking (some c1)) (replyOk [entry])
      | none => refusing s .range
    | none => refusing s .range

/-- Whether a charter has a port that is both enabled and holds the maintenance right (R164). -/
def Charter.maintainable (c : Charter) : Bool :=
  allPorts.any (fun q => (c.ports[q]).enabled && (c.ports[q]).maintenance)

/-- CHARTER_COMMIT's work (R164). -/
def charterCommitOwner (p : Port) : Owner := withWorkingCopy p fun c s =>
  if s.imageQueue.any (·.isCharterWrite) then refusing s .imageBusy
  else if s.supply = .low then refusing s .supplyLow
  else if c.maintainable = false then refusing s .range
  else
    let entry : QueueEntry := { op := .charterWrite c, port := p, session := (s.session p).number }
    answering { s with imageQueue := s.imageQueue ++ [entry] } (replyAccepted [])

/-- CHARTER_READ. -/
def execCharterRead (p : Port) (entry : Byte) (s : State) : Host.Outcome State Fault Refusal :=
  .next (s.serve p (.charterRead entry) (charterReadOwner p entry))

/-- CHARTER_WRITE. -/
def execCharterWrite (p : Port) (entry f0 f1 f2 f3 f4 : Byte) (s : State) :
    Host.Outcome State Fault Refusal :=
  .next (s.serve p (.charterWrite entry f0 f1 f2 f3 f4)
    (charterWriteOwner p entry f0 f1 f2 f3 f4))

/-- CHARTER_COMMIT. -/
def execCharterCommit (p : Port) (s : State) : Host.Outcome State Fault Refusal :=
  .next (s.serve p .charterCommit (charterCommitOwner p))

/-! ## The result of a charter write (R164) -/

/-- CHARTER_DONE (R145, R164). -/
def charterDone (ok : Bool) : Event :=
  { kind := .charterDone, table := none, version := 0
    result := if ok then .ok else .writeFailed, extra := 0 }

/-- Whether a result belongs to the maintenance period that now runs (R164, R166, log 28). -/
def State.resultCounts (s : State) (r : CharterResult) : Bool :=
  decide (s.part.state = .maintenance) && decide (s.part.maintPort = some r.port)
    && decide ((s.session r.port).number = r.session)

/-- CHARTER_WRITE_RESULT (R164): the oldest result handed over is taken. -/
def State.takeCharterResult (s : State) : State :=
  match s.charterResults with
  | r :: rest =>
    let s1 : State := { s with charterResults := rest }
    if s.resultCounts r then
      ({ s1 with part := { s1.part with committed := s1.part.committed || r.ok } } :
        State).enterEvent r.port (some r.session) (charterDone r.ok)
    else s1
  | [] => s

/-- CHARTER_WRITE_RESULT. -/
def execCharterWriteResult (s : State) : Host.Outcome State Fault Refusal :=
  .next s.takeCharterResult

/-! ## The end of maintenance (R165, R166) -/

/-- Maintenance ends without a committed charter (R165, R166): working copy and maintenance port go,
and the part returns to SERVICE or UNCHARTERED. -/
def State.leaveMaintenance (s : State) : State :=
  ({ s with part := { s.part with maintPort := none, working := none } } : State).enterService

/-- MAINT_EXIT's work (R165); a charter restart gives no response of its own. -/
def maintExitOwner (p : Port) : Owner := withWorkingCopy p fun _ s =>
  if s.imageQueue.any (·.isCharterWrite) ∨ s.charterResults ≠ [] then refusing s .imageBusy
  else if s.part.committed then (s.charterRestart, none)
  else if s.part.charterAbsent then refusing s .noCharter
  else answering s.leaveMaintenance (replyOk [])

/-- MAINT_EXIT. -/
def execMaintExit (p : Port) (s : State) : Host.Outcome State Fault Refusal :=
  .next (s.serve p .maintExit (maintExitOwner p))

/-- R166: the part controller takes the end of the maintenance session. -/
def State.endMaintenance (s : State) (p : Port) : State :=
  if EndBlock.partController ∈ s.endsOf p then
    if s.part.committed then s.charterRestart
    else (s.takeEnd p .partController).leaveMaintenance
  else s

/-- MAINTENANCE_SESSION_END. -/
def execMaintenanceSessionEnd (p : Port) (s : State) : Host.Outcome State Fault Refusal :=
  .next (s.endMaintenance p)

end Sys2Proof.Machine
end

