-- ==== Sys2Proof/Machine/Stacks.lean ====
section
/-! DEFINITION. The save stacks' rows: SAVE, RESTORE, DISCARD (R64 to R68) and
SESSION_END_SAVE_STACKS (R73). -/

namespace Sys2Proof.Machine

/-- Table id and version number of a context: 0xFF and 0 where unbound (R65, R67, R68). -/
def contextBytes : Context → List Byte
  | some b => byteOf b.table.val :: wordBytes b.version
  | none => [0xFF, 0, 0]

/-- The pin SAVE asks for (R65). -/
def State.pinContext (s : State) : Context → State
  | some b => s.pinNamed b.table b.version
  | none => s

/-- SAVE's work (R65): a copy of the slot's context is pushed. -/
def saveOwner (p : Port) (slot : Byte) : Owner := fun s => outsideMaintenance s <|
  match slotOperand slot with
  | some c =>
    if Config.stackCapacity ≤ (s.stack p).length then refusing s .stackFull
    else
      let x := s.cursor p c
      answering ((s.pinContext x).setStack p (x :: s.stack p))
        (replyOk (byteOf ((s.stack p).length + 1) :: contextBytes x))
  | none => refusing s .range

/-- The offset and the flags a RESTORE response shows for the restored context (R67). -/
def State.restoredView (s : State) : Context → Option (Nat × Flags)
  | some b =>
    match s.lookup b.table b.version with
    | some (v, isCurrent) =>
      some (b.offset,
        { endReached := b.atEnd v.length, stale := !isCurrent, damaged := v.damaged })
    | none => none
  | none => some (0, {})

/-- RESTORE's work (R66, R67): the top entry is popped into the slot, its pin with it; the version the
slot held before is unpinned. -/
def restoreOwner (p : Port) (slot : Byte) : Owner := fun s => outsideMaintenance s <|
  match slotOperand slot with
  | some c =>
    match s.stack p with
    | [] => refusing s .stackEmpty
    | x :: rest =>
      let s1 := ((s.setStack p rest).setCursor p c x).unpinOld (s.cursor p c)
      match s1.restoredView x with
      | some (offset, flags) =>
        answering s1
          (replyOk (byteOf rest.length :: contextBytes x ++ wordBytes offset) flags)
      | none => (s, none)
  | none => refusing s .range

/-- DISCARD's work (R68): the top entry is removed and its version unpinned. -/
def discardOwner (p : Port) : Owner := fun s => outsideMaintenance s <|
  match s.stack p with
  | [] => refusing s .stackEmpty
  | x :: rest =>
    answering ((s.setStack p rest).unpinOld x)
      (replyOk (byteOf rest.length :: contextBytes x))

/-- SAVE. -/
def execSave (p : Port) (slot : Byte) (s : State) : Host.Outcome State Fault Refusal :=
  .next (s.serve p (.save slot) (saveOwner p slot))

/-- RESTORE. -/
def execRestore (p : Port) (slot : Byte) (s : State) : Host.Outcome State Fault Refusal :=
  .next (s.serve p (.restore slot) (restoreOwner p slot))

/-- DISCARD. -/
def execDiscard (p : Port) (s : State) : Host.Outcome State Fault Refusal :=
  .next (s.serve p .discard (discardOwner p))

/-- One entry of a stack is unpinned; it stands unbound until the stack is emptied (R73). -/
def State.unpinEntry (s : State) (p : Port) (i : Nat) : State :=
  match (s.stack p)[i]? with
  | some (some b) => (s.setStack p ((s.stack p).set i none)).unpin b.table b.version
  | some none => s
  | none => s

/-- R73: the save stacks take the end of p's session: one unpin for each bound entry, in the order
given, the rest from the top down; the depth becomes 0. -/
def State.endStack (s : State) (p : Port) (order : List Nat) : State :=
  if EndBlock.saveStacks ∈ s.endsOf p then
    ((order ++ List.range (s.stack p).length).foldl (fun s i => s.unpinEntry p i)
      (s.takeEnd p .saveStacks)).setStack p []
  else s

/-- SESSION_END_SAVE_STACKS. -/
def execSessionEndSaveStacks (p : Port) (order : List Nat) (s : State) :
    Host.Outcome State Fault Refusal :=
  .next (s.endStack p order)

end Sys2Proof.Machine
end

