-- ==== Sys2Proof/Machine/Sessions.lean ====
section
/-! DEFINITION. The session unit's rows: NOP and STATUS (R143), OPEN (R133, R134), CLOSE (R138) and
LEASE_EXPIRY (R137). -/

namespace Sys2Proof.Machine

/-- NOP's work (R143). -/
def nopOwner : Owner := fun s => answering s (replyOk [])

/-- STATUS data (R143, section 11.5). -/
def State.statusBytes (s : State) (p : Port) : List Byte :=
  [s.part.state.code, byteOf s.supply.code, boolByte s.part.charterAbsent]
    ++ longBytes s.part.charter.sequence
    ++ [boolByte (s.session p).isOpen, byteOf (s.session p).number, (s.session p).departure.code,
      byteOf s.freePool.length, byteOf s.quarantine.length, byteOf s.imageQueue.length]

/-- STATUS' work (R143). -/
def statusOwner (p : Port) : Owner := fun s => answering s (replyOk (s.statusBytes p))

/-- The checks of R133 after the gate: the status of a refusal, or none. -/
def State.openRefusal (s : State) (p : Port) (lease : Word) : Option Status :=
  if s.part.state = .maintenance ∧ s.part.maintPort ≠ some p then some .maintenance
  else if (s.part.charter.ports[p]).enabled = false then some .denied
  else if lease.toNat < Config.minLease ∨ Config.maxLease < lease.toNat
      ∨ (s.part.charter.ports[p]).maxLease < lease.toNat then some .range
  else if (s.session p).isOpen then some .alreadyOpen
  else none

/-- The session number after one (R135). -/
def nextSession (n : Nat) : Nat := if 255 ≤ n then 1 else n + 1

/-- R134: the OPEN at the session unit. -/
def Session.opened (x : Session) (lease : Nat) : Session :=
  { x with
    isOpen := true, number := nextSession x.number, leasePeriod := lease
    leaseTimer := some lease, mask := 0xFF }

/-- The session ends of p that blocks have not yet taken are taken, so that the new session starts
clean (R134, R137, log 12). -/
def State.settleEnds (s : State) (p : Port) : State :=
  (((((s.endEvents p).endCursors p []).endStack p []).endStagingOf p).endImageStore
    p).endMaintenance p

/-- R134 with its answer. -/
def takeOpen (p : Port) (lease : Word) : Owner := fun s =>
  let x := (s.session p).opened lease.toNat
  answering (s.setSession p x)
    (replyOk ([byteOf x.number, x.departure.code] ++ wordBytes lease.toNat))

/-- OPEN's work (R133, R134). Where an outstanding end of the maintenance session brings a charter
restart first, the restart has replaced the request and its buffer (R167). -/
def openOwner (p : Port) (lease : Word) : Owner := fun s =>
  match s.openRefusal p lease with
  | some st => refusing s st
  | none =>
    let s1 := s.settleEnds p
    if s1.part.state = .loading then (s1, none) else takeOpen p lease s1

/-- CLOSE's work (R138). -/
def closeOwner (p : Port) : Owner := fun s =>
  answering (s.endSession p .closed) (replyOk [byteOf (s.session p).number])

/-- LEASE_EXPIRY (R137): a running lease timer of an open session runs out, but not while a request of that
session is in progress past its gate (R136, log 36). -/
def State.expireLease (s : State) (p : Port) : State :=
  if (s.session p).leaseTimer.isSome = true ∧ s.turn p = .start then s.endSession p .leaseExpired else s

/-- NOP. -/
def execNop (p : Port) (s : State) : Host.Outcome State Fault Refusal :=
  .next (s.serve p .nop nopOwner)

/-- STATUS. -/
def execStatus (p : Port) (s : State) : Host.Outcome State Fault Refusal :=
  .next (s.serve p .status (statusOwner p))

/-- OPEN. -/
def execOpenSession (p : Port) (lease : Word) (s : State) : Host.Outcome State Fault Refusal :=
  .next (s.serve p (.openSession lease) (openOwner p lease))

/-- CLOSE. -/
def execClose (p : Port) (s : State) : Host.Outcome State Fault Refusal :=
  .next (s.serve p .close (closeOwner p))

/-- LEASE_EXPIRY. -/
def execLeaseExpiry (p : Port) (s : State) : Host.Outcome State Fault Refusal :=
  .next (s.expireLease p)

end Sys2Proof.Machine
end

