-- ==== Sys2Proof/Machine/Dispatch.lean ====
section
/-! DEFINITION. One arm per command: each is one call of its meaning. -/

namespace Sys2Proof.Machine

def exec (i : Instr) (s : State) : Host.Outcome State Fault Refusal :=
  match i with
  | .frame p bits => Sys2Proof.Machine.execFrame p bits s
  | .pending p edge => Sys2Proof.Machine.execPending p edge s
  | .portBreak p => Sys2Proof.Machine.execPortBreak p s
  | .nop p => Sys2Proof.Machine.execNop p s
  | .status p => Sys2Proof.Machine.execStatus p s
  | .openSession p lease => Sys2Proof.Machine.execOpenSession p lease s
  | .close p => Sys2Proof.Machine.execClose p s
  | .mask p mask => Sys2Proof.Machine.execMask p mask s
  | .events p n => Sys2Proof.Machine.execEvents p n s
  | .tableInfo p table => Sys2Proof.Machine.execTableInfo p table s
  | .bind p slot table offset mode stride follow => Sys2Proof.Machine.execBind p slot table offset mode stride follow s
  | .unbind p slot => Sys2Proof.Machine.execUnbind p slot s
  | .seek p slot offset => Sys2Proof.Machine.execSeek p slot offset s
  | .fetch p slot count words => Sys2Proof.Machine.execFetch p slot count s words
  | .peek p slot offset count words => Sys2Proof.Machine.execPeek p slot offset count s words
  | .resync p slot => Sys2Proof.Machine.execResync p slot s
  | .cursorInfo p slot => Sys2Proof.Machine.execCursorInfo p slot s
  | .save p slot => Sys2Proof.Machine.execSave p slot s
  | .restore p slot => Sys2Proof.Machine.execRestore p slot s
  | .discard p => Sys2Proof.Machine.execDiscard p s
  | .stage p table length fill value => Sys2Proof.Machine.execStage p table length fill value s
  | .write p table offset words => Sys2Proof.Machine.execWrite p table offset words s
  | .commit p table hold => Sys2Proof.Machine.execCommit p table hold s
  | .abort p table => Sys2Proof.Machine.execAbort p table s
  | .persist p table => Sys2Proof.Machine.execPersist p table s
  | .maintEnter p => Sys2Proof.Machine.execMaintEnter p s
  | .charterRead p entry => Sys2Proof.Machine.execCharterRead p entry s
  | .charterWrite p entry f0 f1 f2 f3 f4 => Sys2Proof.Machine.execCharterWrite p entry f0 f1 f2 f3 f4 s
  | .charterCommit p => Sys2Proof.Machine.execCharterCommit p s
  | .maintExit p => Sys2Proof.Machine.execMaintExit p s
  | .leaseExpiry p => Sys2Proof.Machine.execLeaseExpiry p s
  | .sessionEndEventUnit p => Sys2Proof.Machine.execSessionEndEventUnit p s
  | .sessionEndCursorFile p order => Sys2Proof.Machine.execSessionEndCursorFile p order s
  | .sessionEndSaveStacks p order => Sys2Proof.Machine.execSessionEndSaveStacks p order s
  | .sessionEndStaging p => Sys2Proof.Machine.execSessionEndStaging p s
  | .sessionEndImageStore p => Sys2Proof.Machine.execSessionEndImageStore p s
  | .maintenanceSessionEnd p => Sys2Proof.Machine.execMaintenanceSessionEnd p s
  | .parityReport t version page => Sys2Proof.Machine.execParityReport t version page s
  | .checkReport t version => Sys2Proof.Machine.execCheckReport t version s
  | .fillWord => Sys2Proof.Machine.execFillWord s
  | .summingWord => Sys2Proof.Machine.execSummingWord s
  | .retirementNotice t => Sys2Proof.Machine.execRetirementNotice t s
  | .holdDeadline t => Sys2Proof.Machine.execHoldDeadline t s
  | .persistStart => Sys2Proof.Machine.execPersistStart s
  | .persistErase verified => Sys2Proof.Machine.execPersistErase verified s
  | .persistProgramWord verified => Sys2Proof.Machine.execPersistProgramWord verified s
  | .persistMarking verified => Sys2Proof.Machine.execPersistMarking verified s
  | .storeReadStart => Sys2Proof.Machine.execStoreReadStart s
  | .slotVerifyRead => Sys2Proof.Machine.execSlotVerifyRead s
  | .storeReadWord disturbed => Sys2Proof.Machine.execStoreReadWord disturbed s
  | .charterWriteStart => Sys2Proof.Machine.execCharterWriteStart s
  | .charterWriteErase verified => Sys2Proof.Machine.execCharterWriteErase verified s
  | .charterWriteCompletion verified => Sys2Proof.Machine.execCharterWriteCompletion verified s
  | .charterWriteResult => Sys2Proof.Machine.execCharterWriteResult s
  | .powerOn => Sys2Proof.Machine.execPowerOn s
  | .pinReset => Sys2Proof.Machine.execPinReset s
  | .supplyReset => Sys2Proof.Machine.execSupplyReset s
  | .resetRelease millivolts => Sys2Proof.Machine.execResetRelease millivolts s
  | .charterSelection => Sys2Proof.Machine.execCharterSelection s
  | .loadTable disturbed => Sys2Proof.Machine.execLoadTable disturbed s
  | .supplyStateLow => Sys2Proof.Machine.execSupplyStateLow s
  | .supplyStateOk => Sys2Proof.Machine.execSupplyStateOk s
  | .scrubPeriodExpiry => Sys2Proof.Machine.execScrubPeriodExpiry s
  | .scrubWord => Sys2Proof.Machine.execScrubWord s
  | .frameOpen p => Sys2Proof.Machine.execFrameOpen p s
  | .discardingRise p => Sys2Proof.Machine.execDiscardingRise p s

end Sys2Proof.Machine
end

