-- ==== Sys2Proof/Safety.lean ====
section
/-! DEFINITION. The terms of the claims: when a request is served, what the words of a fetch are, and
the laws of the state that every step keeps. -/

namespace Sys2Proof.Machine

/-! ## When a request is served -/

/-- The request in progress on p is this one, with this tag, at this turn (R169, log 35). -/
abbrev State.asksAt (s : State) (p : Port) (req : Request) (tag : Byte) (turn : Turn) : Prop :=
  (s.engine p).inProgress = some { tag := tag, request := req, turn := turn }

/-- The request in progress on p is this one, with this tag, at its start (R169). -/
abbrev State.asks (s : State) (p : Port) (req : Request) (tag : Byte) : Prop :=
  s.asksAt p req tag .start

/-- As State.asks, or past its gate and held until its block can begin it (R28, R81). -/
abbrev State.asksUnbegun (s : State) (p : Port) (req : Request) (tag : Byte) : Prop :=
  s.asks p req tag ∨ s.asksAt p req tag .held

/-- The gate passes a request that needs a session (R132): the part is out of RESET and LOADING, and
the port's session is OPEN. -/
abbrev State.admits (s : State) (p : Port) : Prop :=
  s.part.state ≠ .reset ∧ s.part.state ≠ .loading ∧ (s.session p).isOpen = true

/-- As State.admits, and outside MAINTENANCE: cursor, stack, staging and PERSIST requests are served
(R42, R64, R76, R116). -/
abbrev State.servesTables (s : State) (p : Port) : Prop :=
  s.admits p ∧ s.part.state ≠ .maintenance

/-- The lease timer of p restarted with the full period (R136). -/
def State.leaseRenewed (s : State) (p : Port) : State :=
  s.setSession p { s.session p with leaseTimer := some (s.session p).leasePeriod }

/-- The port is p and it is the writer of a defined table (R76 steps 4 and 5). -/
abbrev State.writes (s : State) (p : Port) (t : TableId) : Prop :=
  (s.table t).entry.defined = true ∧ (s.table t).entry.writer = some p

/-- The working copy of a maintenance session on p (R162). -/
abbrev State.maintains (s : State) (p : Port) (c : Charter) : Prop :=
  s.part.state = .maintenance ∧ s.part.maintPort = some p ∧ s.part.working = some c

/-! ## The arbiter -/

/-- How many places after the pointer a requestor stands in the ring PE0, PE1, PE2, PE3, staging engine,
image store controller (R15). -/
def Requestor.placesAfter (r pointer : Requestor) : Nat :=
  (arbiterRing.idxOf r + arbiterRing.length - arbiterRing.idxOf pointer) % arbiterRing.length

/-! ## What a command may change -/

/-- The state s with the event queues of d. -/
def State.withEventsOf (s d : State) : State := { s with events := d.events }

/-- The state s with table records and event queues of d. -/
def State.withRecordsOf (s d : State) : State := { s with tables := d.tables, events := d.events }

/-- The state s with everything of d that the table directory, the page pool and the event unit hold. -/
def State.withDirectoryOf (s d : State) : State :=
  { s with
    tables := d.tables, freePool := d.freePool, quarantine := d.quarantine, events := d.events
    notices := d.notices }

/-- What a part reset does to the slots of the image store (R123): a write in flight leaves its target
slot without a marker; every other slot, and every slot where no write is in flight, is unchanged. -/
def State.SlotsAbandoned (s t : State) : Prop :=
  match s.imageWork with
  | .persistErasing job | .persistProgramming job _ | .persistMarking job =>
    ((t.pair job.table).slot job.target).marker = false
      ∧ (t.pair job.table).slot job.target.other = (s.pair job.table).slot job.target.other
      ∧ (∀ u, u ≠ job.table → t.pair u = s.pair u)
      ∧ t.charterSlots = s.charterSlots
  | .charterErasing job | .charterProgramming job =>
    (t.charterSlots.slot job.target).marker = false
      ∧ t.charterSlots.slot job.target.other = s.charterSlots.slot job.target.other
      ∧ t.store = s.store
  | .idle | .selecting _ _ | .reading _ => t.store = s.store ∧ t.charterSlots = s.charterSlots

/-- What every part reset of s leaves in t (R14, R39, R62, R74, R98, R103, R123, R130, R144, R154, R167, R171):
no version, cursor, saved context, event or work; every page free; every session CLOSED, every buffer
NOT_READY; the target slot of a write in flight without a marker. -/
def State.VolatileCleared (s t : State) : Prop :=
  t.pending = s.pending
    ∧ t.part.maintPort = none ∧ t.part.working = none ∧ t.part.committed = false
    ∧ t.freePool = List.range 128 ∧ t.quarantine = [] ∧ t.arbiter = .portEngine 0
    ∧ (∀ u, (t.table u).current = none ∧ (t.table u).staged = none ∧ (t.table u).retiring = none)
    ∧ (∀ p c, t.cursor p c = none) ∧ (∀ p, t.stack p = [])
    ∧ (∀ p, t.queue p = { entries := [], overrun := false }) ∧ (∀ p, t.endsOf p = [])
    ∧ t.notices = [] ∧ t.reports = [] ∧ t.workList = [] ∧ t.headWork = none
    ∧ t.imageQueue = [] ∧ t.imageWork = .idle ∧ t.charterResults = []
    ∧ t.scrub = { running := false, due := false, nextId := 0, visit := none, timer := none }
    ∧ (∀ p, (t.engine p).buffer = { tag := 0, status := .notReady, flags := 0, data := [] }
        ∧ (t.engine p).inProgress = none ∧ (t.engine p).csLow = (s.engine p).csLow
        ∧ (t.engine p).rx = if (s.engine p).csLow then .discarding else .idle)
    ∧ (∀ p, (t.session p).isOpen = false ∧ (t.session p).leaseTimer = none
        ∧ (t.session p).mask = 0xFF)
    ∧ s.SlotsAbandoned t

/-- Session numbers and lease periods are kept, and the departure record of an open session alone
becomes the cause (R144). -/
def State.SessionsRecorded (cause : Departure) (s t : State) : Prop :=
  ∀ p, (t.session p).number = (s.session p).number
    ∧ (t.session p).leasePeriod = (s.session p).leasePeriod
    ∧ (t.session p).departure =
      if (s.session p).isOpen then cause else (s.session p).departure

/-! ## Words of a fetch -/

/-- The offsets a FETCH of up to n words reads from a cursor, in order: it stops at END (R53). -/
def fetchOffsets (b : Binding) (length : Nat) : Nat → List Nat
  | 0 => []
  | n + 1 =>
    if b.atEnd length then []
    else
      b.offset
        :: fetchOffsets { b with offset := b.mode.step b.offset b.stride length } length n

/-- The offset at which that FETCH leaves the cursor when every word reads well. -/
def fetchEnd (b : Binding) (length : Nat) : Nat → Nat
  | 0 => b.offset
  | n + 1 =>
    if b.atEnd length then b.offset
    else fetchEnd { b with offset := b.mode.step b.offset b.stride length } length n

/-- Every one of these offsets of a version reads with good parity (R3). -/
abbrev State.soundAt (s : State) (pages : List Nat) (offsets : List Nat) : Prop :=
  ∀ o ∈ offsets, oddOnes (s.versionWord pages o) = true

/-- The values stored at these offsets of a version. -/
def State.wordsAt (s : State) (pages : List Nat) (offsets : List Nat) : List Word :=
  offsets.map (fun o => valueOf (s.versionWord pages o))

/-- How many of a port's slots are bound to a version. -/
def State.slotsOn (s : State) (p : Port) (t : TableId) (n : Nat) : Nat :=
  allSlots.countP (fun c => (s.cursor p c).any (fun b => b.table = t ∧ b.version = n))

/-- How many of a port's saved contexts name a version. -/
def State.savedOn (s : State) (p : Port) (t : TableId) (n : Nat) : Nat :=
  (s.stack p).countP (fun x => x.any (fun b => b.table = t ∧ b.version = n))

/-! ## Laws of the state -/

/-- Table memory has its canonical form. -/
abbrev State.memoryCanonical (s : State) : Prop := Memory.wf s.mem

/-- R145, R148, R63, R115: queues and stacks within their capacity, an overrun flag only beside an
entry; and in MAINTENANCE only a charter write waits (R164). -/
def State.withinCapacity (s : State) : Prop :=
  (∀ p, (s.queue p).entries.length ≤ Config.eventCapacity
      ∧ ((s.queue p).overrun = true → (s.queue p).entries ≠ []))
    ∧ (∀ p, (s.stack p).length ≤ Config.stackCapacity)
    ∧ s.imageQueue.length ≤ Config.queueCapacity
    ∧ (s.part.state = .maintenance → ∀ e ∈ s.imageQueue, e.isCharterWrite = true)

/-- The pages of the resident versions of a table. -/
def TableRecord.pages (r : TableRecord) : List Nat :=
  (match r.current with | some v => v.pages | none => [])
    ++ (match r.staged with | some st => st.version.pages | none => [])
    ++ (match r.retiring with | some v => v.pages | none => [])

/-- A table without a resident version. -/
abbrev TableRecord.vacant (r : TableRecord) : Prop :=
  r.current = none ∧ r.staged = none ∧ r.retiring = none

/-- R39, R128: no version is resident in RESET nor before the charter is chosen; while table t is to be
loaded, no table has a STAGED or RETIRING version, and none from t on has a CURRENT one. -/
def State.loadInOrder (s : State) : Prop :=
  (s.part.state = .reset → ∀ u, (s.table u).vacant)
    ∧ (s.part.state = .loading →
        match s.part.loading with
        | .idle => True
        | .charter => ∀ u, (s.table u).vacant
        | .table t => ∀ u, (s.table u).staged = none ∧ (s.table u).retiring = none
            ∧ (t ≤ u → (s.table u).current = none))

/-- R7: each page is in exactly one of the free pool, the quarantine list and one page list. -/
def State.pagesAccounted (s : State) : Prop :=
  (s.freePool ++ s.quarantine ++ allTables.flatMap (fun t => (s.table t).pages)).Perm
    (List.range Config.pageCount)

/-- R8: the free pool is kept in ascending order, with no page twice. -/
def State.poolAscending (s : State) : Prop := s.freePool.Pairwise (· < ·)

/-- R18, R20: a RETIRING version stands only beside a CURRENT one, and the numbers of a table's
resident versions are pairwise distinct. -/
def TableRecord.lawful (r : TableRecord) : Prop :=
  (r.retiring.isSome = true → r.current.isSome = true)
    ∧ (∀ v w, r.current = some v → r.retiring = some w → v.number ≠ w.number)
    ∧ (∀ st v, r.staged = some st → r.current = some v → st.version.number ≠ v.number)
    ∧ (∀ st w, r.staged = some st → r.retiring = some w → st.version.number ≠ w.number)

/-- Every table record is lawful. -/
def State.rolesLawful (s : State) : Prop := ∀ t, (s.table t).lawful

/-- R131, R135, R144: a session is OPEN exactly while its lease timer runs, never in RESET or LOADING,
and with a number from 1 to 255. -/
def State.sessionsLawful (s : State) : Prop :=
  ∀ p, ((s.session p).isOpen = (s.session p).leaseTimer.isSome)
    ∧ ((s.session p).isOpen = true → s.part.state ≠ .reset ∧ s.part.state ≠ .loading)
    ∧ (s.session p).number ≤ 255
    ∧ ((s.session p).isOpen = true → 1 ≤ (s.session p).number)

/-- R155, R162: a maintenance port and a working copy exactly in MAINTENANCE, the charter-committed
flag only there, and no other port's session beside the maintenance session. -/
def State.maintenanceLawful (s : State) : Prop :=
  (s.part.maintPort.isSome = true ↔ s.part.state = .maintenance)
    ∧ (s.part.working.isSome = true ↔ s.part.state = .maintenance)
    ∧ (s.part.committed = true → s.part.state = .maintenance)
    ∧ (s.part.state = .maintenance →
        ∀ q, s.part.maintPort ≠ some q → (s.session q).isOpen = false)

/-- A law that every step keeps: it holds after a step wherever it held before. -/
def State.KeptByStep (law : State → Prop) : Prop :=
  ∀ s t, law s → step s = .next t → law t

end Sys2Proof.Machine
end

