-- ==== Sys2Proof/Certificates/Slice0/Obligations.lean ====
section
/-! DEFINITION. The statements for the provers. -/

open Sys2Proof Sys2Proof.Machine

/-! ## Steps -/

/-- A step with a command at the front of the queue is that command on the state with the queue's rest.
Conventions of the model stand in it: log 33. -/
def Obligations.StepTakesTheFrontCommand : Prop :=
  ∀ (c : Instr) (rest : List Instr) (s : State),
    step { s with pending := c :: rest } = exec c { s with pending := rest }

/-- Every command on every state answers a next state, and leaves the queue of commands alone.
Conventions of the model stand in it: log 2, 3, 25. -/
def Obligations.EveryCommandAnswersNext : Prop :=
  ∀ (c : Instr) (s : State), ∃ t, exec c s = .next t ∧ t.pending = s.pending

/-! ## Frames -/

/-- The frame of every well-formed request, followed by any bytes, is judged as that request. -/
def Obligations.RequestFramesDecode : Prop :=
  ∀ (r : Request) (tag : Byte) (extra : List Byte), r.wellFormed = true →
    judgeFrame (r.frame tag ++ extra) = .taken tag r

/-- FRAME_OPEN from IDLE with no request in progress fixes the buffered response. A frame that meets
PENDING shifts out a PENDING response with the tag in progress, and its rise changes neither the buffer
nor the request in progress. DISCARDING_RISE frees the port. Nothing but the port engine changes. An open
frame shifts out its response's bytes, the CRC-8 last, and then 0xFF, each byte bit by bit, most
significant bit first; without one nothing is driven. Conventions of the model stand in it: log 17, 20,
39. -/
def Obligations.FramesOpenAndEnd : Prop :=
  (∀ (p : Port) (s : State), s.part.state ≠ .reset → (s.engine p).rx = .idle →
    (s.engine p).inProgress = none →
    exec (.frameOpen p) s = .next (s.setEngine p
      { s.engine p with
        csLow := true, rx := .receiving, metPending := false, breakTimer := true
        shiftOut := some (s.engine p).buffer }))
  ∧ (∀ (p : Port) (s : State), (s.engine p).rx = .discarding →
    exec (.discardingRise p) s = .next (s.setEngine p
      { s.engine p with
        csLow := false, rx := .idle, metPending := false, breakTimer := false
        shiftOut := none }))
  ∧ (∀ (p : Port) (job : InProgress) (s : State), s.part.state ≠ .reset →
    (s.engine p).rx = .idle → (s.engine p).inProgress = some job →
    exec (.pending p .fall) s = .next (s.setEngine p
      { s.engine p with
        csLow := true, rx := .receiving, metPending := true, breakTimer := true
        shiftOut := some { tag := job.tag, status := .pending, flags := 0, data := [] } }))
  ∧ (∀ (p : Port) (s : State), (s.engine p).rx = .receiving → (s.engine p).metPending = true →
    exec (.pending p .rise) s = .next (s.setEngine p
      { s.engine p with
        csLow := false, rx := .idle, metPending := false, breakTimer := false
        shiftOut := none }))
  ∧ (∀ (p : Port) (s : State), ((s.engine p).shiftOut = none → ∀ i, s.sdoByte p i = none)
    ∧ (∀ r : Response, (s.engine p).shiftOut = some r →
      let body := [r.tag, r.status.code, r.flags, byteOf r.data.length] ++ r.data
      (∀ i b, body[i]? = some b → s.sdoByte p i = some b)
      ∧ s.sdoByte p body.length = some (crc8 body)
      ∧ (∀ i, body.length < i → s.sdoByte p i = some 0xFF)))
  ∧ (∀ (p : Port) (i j : Nat) (s : State), j < 8 →
    (s.sdoByte p i = none → s.sdoBit p (8 * i + j) = none)
    ∧ (∀ b, s.sdoByte p i = some b → s.sdoBit p (8 * i + j) = some (b.getLsbD (7 - j))))

/-- FRAME, as the judgement at the rise: the whole, correct frame of a request sets it in progress,
bytes after the CRC and a last byte of fewer than eight edges ignored; an empty frame changes nothing
else; a frame in error is answered FRAME_ERROR, and a frame with an unknown code or a length its code
does not allow BAD_REQUEST, at once. Conventions of the model stand in it: log 20, 34. -/
def Obligations.FrameIsJudgedAtItsRise : Prop :=
  (∀ (p : Port) (r : Request) (tag : Byte) (extra : List Byte) (tail : List Bool) (s : State),
    s.part.state ≠ .reset → (s.engine p).rx = .receiving → (s.engine p).metPending = false →
    r.wellFormed = true → tail.length < 8 →
    exec (.frame p (bitsOfBytes (r.frame tag ++ extra) ++ tail)) s = .next (s.setEngine p
      { s.engine p with
        csLow := false, rx := .idle, metPending := false, breakTimer := false
        shiftOut := none, inProgress := some { tag := tag, request := r } }))
  ∧ (∀ (p : Port) (bytes : List Byte) (tail : List Bool) (s : State),
    s.part.state ≠ .reset → (s.engine p).rx = .receiving → (s.engine p).metPending = false →
    tail.length < 8 →
    let closed : PortEngine :=
      { s.engine p with
        csLow := false, rx := .idle, metPending := false, breakTimer := false
        shiftOut := none }
    let error (tag : Byte) : State := s.setEngine p
      { closed with buffer := { tag := tag, status := .frameError, flags := 0, data := [] } }
    let outcome := exec (.frame p (bitsOfBytes bytes ++ tail)) s
    (bytes = [] → outcome = .next (s.setEngine p closed))
    ∧ (∀ code, bytes = [code] → outcome = .next (error 0))
    ∧ (∀ code tag, bytes = [code, tag] → outcome = .next (error tag))
    ∧ (∀ code tag len rest, bytes = code :: tag :: len :: rest →
        (40 < len.toNat ∨ rest.length < len.toNat + 1
          ∨ crc8 (code :: tag :: len :: rest.take len.toNat) ≠ rest.getD len.toNat 0) →
        outcome = .next (error tag))
    ∧ (∀ code tag len rest, bytes = code :: tag :: len :: rest → len.toNat ≤ 40 →
        len.toNat + 1 ≤ rest.length →
        crc8 (code :: tag :: len :: rest.take len.toNat) = rest.getD len.toNat 0 →
        decodeRequest code (rest.take len.toNat) = none →
        outcome = .next ((s.setEngine p
          { closed with
            buffer := { tag := tag, status := .badRequest, flags := 0, data := [] } }).restartLease
              p)))

/-- PORT_BREAK, while the measurement of a chip-select low period runs, whatever the receive state: the
frame ends, the buffer takes NO_SESSION, and an open session ends with cause PORT_BREAK and is handed to
the blocks. Where no measurement runs, and so a second time in one low period, it changes nothing.
Conventions of the model stand in it: log 3, 13, 19, 20. -/
def Obligations.PortBreakEndsFrameAndSession : Prop :=
  ∀ (p : Port) (s : State), ((s.engine p).breakTimer = false → exec (.portBreak p) s = .next s)
    ∧ ((s.engine p).breakTimer = true → (s.engine p).inProgress = none →
    let broken := s.setEngine p
      { s.engine p with
        rx := .discarding, metPending := false, breakTimer := false
        buffer := { tag := 0, status := .noSession, flags := 0, data := [] } }
    ((s.session p).isOpen = false → exec (.portBreak p) s = .next broken)
    ∧ ((s.session p).isOpen = true → exec (.portBreak p) s = .next ((broken.setSession p
        { s.session p with isOpen := false, leaseTimer := none, departure := .portBreak }).setEnds p
          ([.eventUnit, .cursorFile, .saveStacks, .stagingEngine, .imageStore]
            ++ if s.part.maintPort = some p then [.partController] else []))))

/-! ## The gate -/

/-- The gate answers every request but STATUS with NOT_READY in LOADING, and every request but STATUS
and OPEN with NO_SESSION on a CLOSED port; nothing but the response changes. In MAINTENANCE the owner of a
cursor, stack, staging or PERSIST request that the gate has passed refuses it MAINTENANCE; nothing but the
lease and the response changes. -/
def Obligations.GateAndMaintenanceRefuseRequests : Prop :=
  ∀ (i : Instr) (p : Port) (r : Request) (tag : Byte) (s : State), i.asRequest = some (p, r) →
    s.asks p r tag →
    (s.part.state ≠ .reset → r ≠ .status →
    (s.part.state = .loading → exec i s = .next (s.respond p tag (refuse .notReady)))
    ∧ (s.part.state ≠ .loading → (∀ lease, r ≠ .openSession lease) →
        (s.session p).isOpen = false → exec i s = .next (s.respond p tag (refuse .noSession))))
    ∧ (r.usesTables = true → s.part.state = .maintenance → (s.session p).isOpen = true →
        exec i s = .next ((s.leaseRenewed p).respond p tag (refuse .maintenance)))

/-! ## Sessions -/

/-- STATUS answers the thirteen bytes as they stand, with or without a session, and restarts the lease
of an open session only; NOP answers OK and restarts the lease. -/
def Obligations.StatusAndNopAnswer : Prop :=
  (∀ (p : Port) (tag : Byte) (s : State), s.asks p .status tag → s.part.state ≠ .reset →
    exec (.status p) s = .next
      ((if (s.session p).isOpen then s.leaseRenewed p else s).respond p tag (replyOk
        ([s.part.state.code, if s.supply = .low then 1 else 0,
            if s.part.charterAbsent then 1 else 0,
            byteOf (s.part.charter.sequence / 16777216), byteOf (s.part.charter.sequence / 65536),
            byteOf (s.part.charter.sequence / 256), byteOf s.part.charter.sequence,
            if (s.session p).isOpen then 1 else 0, byteOf (s.session p).number,
            (s.session p).departure.code, byteOf s.freePool.length, byteOf s.quarantine.length,
            byteOf s.imageQueue.length]))))
  ∧ (∀ (p : Port) (tag : Byte) (s : State), s.asks p .nop tag → s.admits p →
    exec (.nop p) s = .next ((s.leaseRenewed p).respond p tag (replyOk [])))

/-- OPEN is checked in its order; a refused OPEN restarts the lease of a session that is open, and
changes nothing else but the response. On a port whose earlier session end every block has taken, an
OPEN past every check gives a new session number, the lease, a running timer and a full mask, keeps the
departure record, and changes nothing else but the response. Conventions of the model stand in it: log
12. -/
def Obligations.OpenIsCheckedInOrder : Prop :=
  ∀ (p : Port) (lease : Word) (tag : Byte) (s : State), s.asks p (.openSession lease) tag →
    s.part.state ≠ .reset →
    let refused (st : Status) : Prop :=
      exec (.openSession p lease) s = .next
        ((if (s.session p).isOpen then s.leaseRenewed p else s).respond p tag (refuse st))
    if s.part.state = .loading then
      exec (.openSession p lease) s = .next (s.respond p tag (refuse .notReady))
    else if s.part.state = .maintenance ∧ s.part.maintPort ≠ some p then refused .maintenance
    else if (s.part.charter.ports[p]).enabled = false then refused .denied
    else if lease.toNat < 10 ∨ 6000 < lease.toNat
        ∨ (s.part.charter.ports[p]).maxLease < lease.toNat then refused .range
    else if (s.session p).isOpen = true then refused .alreadyOpen
    else s.endsOf p = [] →
      let number := if (s.session p).number < 255 then (s.session p).number + 1 else 1
      exec (.openSession p lease) s = .next ((s.setSession p
        { isOpen := true, number := number, leasePeriod := lease.toNat
          leaseTimer := some lease.toNat, departure := (s.session p).departure
          mask := 0xFF }).respond p tag
            (replyOk ([byteOf number, (s.session p).departure.code] ++ bytesOfWord lease)))

/-- CLOSE and LEASE_EXPIRY: the timer stops, the session is CLOSED with its cause, and the end is handed
to the blocks; CLOSE answers the ended number. While a request of the session is in progress past its gate,
the lease does not expire; a request not yet at its gate does not keep it. Conventions of the model stand in
it: log 5, 13, 36. -/
def Obligations.CloseAndLeaseExpiryEndTheSession : Prop :=
  ∀ (p : Port) (s : State),
    let ended (cause : Departure) : State := (s.setSession p
      { s.session p with isOpen := false, leaseTimer := none, departure := cause }).setEnds p
        ([.eventUnit, .cursorFile, .saveStacks, .stagingEngine, .imageStore]
          ++ if s.part.maintPort = some p then [.partController] else [])
    (∀ tag, s.asks p .close tag → s.admits p →
      exec (.close p) s = .next ((ended .closed).respond p tag
        (replyOk [byteOf (s.session p).number])))
    ∧ ((s.session p).isOpen = true → (s.session p).leaseTimer.isSome = true →
      (∀ job, (s.engine p).inProgress = some job → job.turn = .start) →
      exec (.leaseExpiry p) s = .next (ended .leaseExpired))
    ∧ (∀ job, (s.engine p).inProgress = some job → job.turn ≠ .start →
      exec (.leaseExpiry p) s = .next s)

/-- A session end at the event unit, the cursor file and the save stacks: the port's queue, slots and
stack are emptied; every version loses one pin for each slot or entry that held it, and a RETIRING
version that loses its last pin is gone. The other ports keep theirs, and table memory keeps every word.
Conventions of the model stand in it: log 13, 29. -/
def Obligations.SessionEndEmptiesThePort : Prop :=
  (∀ (p : Port) (s : State), EndBlock.eventUnit ∈ s.endsOf p →
    exec (.sessionEndEventUnit p) s = .next
      ((s.setEnds p ((s.endsOf p).erase .eventUnit)).setQueue p { entries := [], overrun := false }))
  ∧ (∀ (p : Port) (order : List SlotId) (s : State), EndBlock.cursorFile ∈ s.endsOf p →
    ∃ t, exec (.sessionEndCursorFile p order) s = .next t
      ∧ t.endsOf p = (s.endsOf p).erase .cursorFile
      ∧ (∀ c, t.cursor p c = none) ∧ (∀ q c, q ≠ p → t.cursor q c = s.cursor q c)
      ∧ t = { s.withDirectoryOf t with ends := t.ends, cursors := t.cursors }
      ∧ (∀ q, q ≠ p → t.endsOf q = s.endsOf q)
      ∧ (∀ u v, (s.table u).current = some v →
          (t.table u).current = some { v with pins := v.pins - s.slotsOn p u v.number })
      ∧ (∀ u v w, (s.table u).current = some v → (s.table u).retiring = some w →
          w.number ≠ v.number → s.slotsOn p u w.number ≤ w.pins →
          (t.table u).retiring =
            if s.slotsOn p u w.number = 0 then some w
            else if s.slotsOn p u w.number = w.pins then none
            else some { w with pins := w.pins - s.slotsOn p u w.number }))
  ∧ (∀ (p : Port) (order : List Nat) (s : State), EndBlock.saveStacks ∈ s.endsOf p →
    ∃ t, exec (.sessionEndSaveStacks p order) s = .next t
      ∧ t.endsOf p = (s.endsOf p).erase .saveStacks
      ∧ t.stack p = [] ∧ (∀ q, q ≠ p → t.stack q = s.stack q)
      ∧ t = { s.withDirectoryOf t with ends := t.ends, saveStacks := t.saveStacks }
      ∧ (∀ q, q ≠ p → t.endsOf q = s.endsOf q)
      ∧ (∀ u v, (s.table u).current = some v →
          (t.table u).current = some { v with pins := v.pins - s.savedOn p u v.number })
      ∧ (∀ u v w, (s.table u).current = some v → (s.table u).retiring = some w →
          w.number ≠ v.number → s.savedOn p u w.number ≤ w.pins →
          (t.table u).retiring =
            if s.savedOn p u w.number = 0 then some w
            else if s.savedOn p u w.number = w.pins then none
            else some { w with pins := w.pins - s.savedOn p u w.number }))

/-- A session end at the staging engine and at the image store controller: every STAGED version the port
writes is gone and no other, and its entry has left the work list, with the head's progress where it was
the head, or the image store queue, with the STORE read stopped where it was in flight; the port's waiting
entries are withdrawn, its STORE read in flight is stopped, and any other operation in flight goes on.
Conventions of the model stand in it: log 13, 32. -/
def Obligations.SessionEndStopsTheWork : Prop :=
  (∀ (p : Port) (s : State), EndBlock.stagingEngine ∈ s.endsOf p →
    let stages (u : TableId) (holds : SubState → Bool) : Bool :=
      decide ((s.table u).entry.writer = some p) && (s.table u).staged.any (fun st => holds st.sub)
    let listed (u : TableId) : Bool := stages u SubState.listed
    let stored (e : QueueEntry) : Bool :=
      match e.op with
      | .storeRead u => stages u (fun sub => sub = .filling .store)
      | .persist _ | .charterWrite _ => false
    ∃ t, exec (.sessionEndStaging p) s = .next t
      ∧ t.endsOf p = (s.endsOf p).erase .stagingEngine
      ∧ (∀ u, (s.table u).entry.writer = some p → (t.table u).staged = none)
      ∧ (∀ u, (s.table u).entry.writer ≠ some p → t.table u = s.table u)
      ∧ t = { s.withDirectoryOf t with
          ends := t.ends, workList := t.workList, headWork := t.headWork
          imageQueue := t.imageQueue, imageWork := t.imageWork }
      ∧ (∀ q, q ≠ p → t.endsOf q = s.endsOf q)
      ∧ t.workList = s.workList.filter (fun u => !listed u)
      ∧ t.headWork = (if s.workList.head?.any listed then none else s.headWork)
      ∧ (s.imageWork = .idle → t.imageWork = .idle
        ∧ t.imageQueue = s.imageQueue.filter (fun e => !stored e))
      ∧ (∀ e rest, s.imageWork ≠ .idle → s.imageQueue = e :: rest →
        (stored e = true → (∀ x ∈ rest, x.op ≠ e.op) → t.imageWork = .idle
          ∧ t.imageQueue = rest.filter (fun x => !stored x))
        ∧ (stored e = false → t.imageWork = s.imageWork
          ∧ t.imageQueue = e :: rest.filter (fun x => !stored x))))
  ∧ (∀ (p : Port) (s : State), EndBlock.imageStore ∈ s.endsOf p →
    let taken := s.setEnds p ((s.endsOf p).erase .imageStore)
    (s.imageWork = .idle → exec (.sessionEndImageStore p) s = .next
      { taken with imageQueue := s.imageQueue.filter (fun e => e.port ≠ p) })
    ∧ (∀ e rest, s.imageWork ≠ .idle → s.imageQueue = e :: rest →
        ((e.port = p ∧ ∃ u, e.op = .storeRead u) → exec (.sessionEndImageStore p) s = .next
          { taken with imageQueue := rest.filter (fun x => x.port ≠ p), imageWork := .idle })
        ∧ (¬(e.port = p ∧ ∃ u, e.op = .storeRead u) → exec (.sessionEndImageStore p) s = .next
          { taken with imageQueue := e :: rest.filter (fun x => x.port ≠ p) })))

/-! ## Events -/

/-- MASK replaces the mask whole and answers it. EVENTS takes the k oldest entries, k the smaller of n
and the number there, answers them with the overrun flag and what is left, and clears the flag; an n
outside 1 to 4 is refused RANGE. The attention line is driven while the session is OPEN and the queue
holds an entry. -/
def Obligations.MaskAndEventsServe : Prop :=
  (∀ (p : Port) (m tag : Byte) (s : State), s.asks p (.mask m) tag → s.admits p →
    exec (.mask p m) s = .next ((s.setSession p
      { s.session p with leaseTimer := some (s.session p).leasePeriod, mask := m }).respond p tag
        (replyOk [m])))
  ∧ (∀ (p : Port) (n tag : Byte) (s : State), s.asks p (.events n) tag → s.admits p →
    (1 ≤ n.toNat → n.toNat ≤ 4 →
      let k := min n.toNat (s.queue p).entries.length
      exec (.events p n) s = .next (((s.leaseRenewed p).setQueue p
        { entries := (s.queue p).entries.drop k, overrun := false }).respond p tag
          (replyOk ([byteOf k, if (s.queue p).overrun then 1 else 0,
              byteOf ((s.queue p).entries.length - k)]
            ++ ((s.queue p).entries.take k).flatMap Event.bytes))))
    ∧ (n.toNat = 0 ∨ 4 < n.toNat →
      exec (.events p n) s = .next ((s.leaseRenewed p).respond p tag (refuse .range))))
  ∧ (∀ (p : Port) (s : State), s.attention p = true ↔
    (s.session p).isOpen = true ∧ (s.queue p).entries ≠ [])

/-- The entry of an event in one port's queue, step by step; nothing but that queue changes. -/
def Obligations.EventEntryTakesFiveSteps : Prop :=
  ∀ (s : State) (p : Port) (named : Option Nat) (e : Event),
    let deliverable := (s.session p).isOpen = true
      ∧ (∀ n, named = some n → n = (s.session p).number)
    let q := s.queue p
    let matching (x : Event) : Prop :=
      (e.kind = .newVersion ∧ x.kind = .newVersion ∧ x.table = e.table)
        ∨ (e.kind = .supply ∧ x.kind = .supply)
    (¬deliverable → s.enterEvent p named e = s)
    ∧ ((s.session p).mask.getLsbD (e.kind.code - 1) = false → s.enterEvent p named e = s)
    ∧ (deliverable → (s.session p).mask.getLsbD (e.kind.code - 1) = true →
        (∀ before x after, q.entries = before ++ x :: after → matching x →
          (∀ y ∈ before ++ after, ¬matching y) →
          s.enterEvent p named e = s.setQueue p
            { q with
              entries := before
                ++ { x with version := e.version, result := e.result, extra := e.extra }
                :: after })
        ∧ ((∀ x ∈ q.entries, ¬matching x) → q.entries.length < 8 →
          s.enterEvent p named e = s.setQueue p { q with entries := q.entries ++ [e] })
        ∧ ((∀ x ∈ q.entries, ¬matching x) → 8 ≤ q.entries.length →
          s.enterEvent p named e = s.setQueue p { q with overrun := true }))

/-! ## Directory -/

/-- TABLE_INFO answers forty bytes of the table's record, ten of them for each role: version number,
length, pin count, check value with its indication, DAMAGED flag with its cause, and the number of faulty
pages, ten zeros where the role is absent. An operand above 31 is refused RANGE. -/
def Obligations.TableInfoReportsTheRecord : Prop :=
  ∀ (p : Port) (table tag : Byte) (s : State), s.asks p (.tableInfo table) tag → s.admits p →
    (∀ t : TableId, table.toNat = t.val →
      let r := s.table t
      let role (x : Option Version) : List Byte :=
        match x with
        | some v =>
          wordBytes v.number ++ wordBytes v.length ++ [byteOf v.pins]
            ++ (match v.check with
                | some w => 1 :: bytesOfWord w
                | none => [0, 0, 0])
            ++ [match v.damage with | .clear => 0 | .parity => 1 | .check => 2,
                byteOf v.faulty.length]
        | none => List.replicate 10 0
      exec (.tableInfo p table) s = .next ((s.leaseRenewed p).respond p tag (replyOk (r.info t)))
      ∧ (r.info t).length = 40
      ∧ (r.info t).take 7 = [table, if r.entry.defined then 1 else 0,
          if r.entry.persistent then 1 else 0, portByte r.entry.writer,
          r.entry.readers.setWidth 8, byteOf r.entry.maxPages, r.loadResult.code]
      ∧ ((r.info t).drop 7).take 2 = wordBytes r.nextVersion
      ∧ ((r.info t).drop 9).take 10 = role r.current
      ∧ ((r.info t).drop 19).take 10 = role (r.staged.map (·.version))
      ∧ ((r.info t).drop 29).take 10 = role r.retiring
      ∧ (r.info t).drop 39 = [match r.staged with | some st => st.sub.code | none => 0])
    ∧ (31 < table.toNat →
        exec (.tableInfo p table) s = .next ((s.leaseRenewed p).respond p tag (refuse .range)))

/-- PARITY_REPORT on a resident version adds the page to its faulty set, and where the DAMAGED flag was
clear sets it with cause PARITY and enters DAMAGE for the readers and the writer; on a version that is
not resident it is discarded. The visit of the scrubber that sent the report ends after that. Conventions
of the model stand in it: log 7, 13. -/
def Obligations.ParityReportsAreRecorded : Prop :=
  ∀ (t : TableId) (n page : Nat) (s : State),
    let r := s.table t
    let taken : State := { s with reports := s.reports.erase (.parity t n page) }
    let ended (s1 : State) : State :=
      if .parity t n page ∈ s.reports then
        match s.scrub.visit with
        | some x => s1.endVisit x.table
        | none => s1
      else s1
    let marked (v : Version) : Version :=
      { v with
        faulty := insertSorted page v.faulty
        damage := if v.damage = Damage.clear then .parity else v.damage }
    let told (v : Version) (s1 : State) : State :=
      if v.damage = Damage.clear then
        s1.enterEvents r.entry.audience
          { kind := .damage, table := some t, version := n, result := .parity, extra := 0 }
      else s1
    (∀ v, r.current = some v → v.number = n → exec (.parityReport t n page) s = .next
      (ended (told v (taken.setTable t { r with current := some (marked v) }))))
    ∧ (∀ v, (∀ w, r.current = some w → w.number ≠ n) → r.retiring = some v → v.number = n →
      exec (.parityReport t n page) s = .next
        (ended (told v (taken.setTable t { r with retiring := some (marked v) }))))
    ∧ (∀ st, (∀ w, r.current = some w → w.number ≠ n) →
      (∀ w, r.retiring = some w → w.number ≠ n) → r.staged = some st → st.version.number = n →
      exec (.parityReport t n page) s = .next (ended (told st.version (taken.setTable t
        { r with staged := some { st with version := marked st.version } }))))
    ∧ ((∀ w, r.current = some w → w.number ≠ n) → (∀ w, r.retiring = some w → w.number ≠ n) →
      (∀ st, r.staged = some st → st.version.number ≠ n) →
      exec (.parityReport t n page) s = .next (ended taken))

/-- CHECK_REPORT sets DAMAGED with cause CHECK on the CURRENT version of that number where its flag is
clear, leaves the faulty set alone and enters DAMAGE; otherwise it is discarded. The visit of the
scrubber that sent the report ends after that. Conventions of the model stand in it: log 7, 13. -/
def Obligations.CheckReportsAreRecorded : Prop :=
  ∀ (t : TableId) (n : Nat) (s : State),
    let r := s.table t
    let taken : State := { s with reports := s.reports.erase (.check t n) }
    let ended (s1 : State) : State :=
      if .check t n ∈ s.reports then
        match s.scrub.visit with
        | some x => s1.endVisit x.table
        | none => s1
      else s1
    (∀ v, r.current = some v → v.number = n → v.damage = .clear →
      exec (.checkReport t n) s = .next
        (ended ((taken.setTable t { r with
            current := some { v with damage := .check } }).enterEvents r.entry.audience
          { kind := .damage, table := some t, version := n, result := .check, extra := 0 })))
    ∧ ((∀ v, r.current = some v → v.number = n → v.damage ≠ .clear) →
      exec (.checkReport t n) s = .next (ended taken))

/-- An unpin lowers the named version's count by one; a RETIRING version whose count reaches 0 is
retired: its pages leave it, the role is empty, RETIRED is entered for the writer, and a notice is
handed on where the STAGED version is HELD. Conventions of the model stand in it: log 13. -/
def Obligations.UnpinRetiresAtCountZero : Prop :=
  ∀ (s : State) (t : TableId) (n : Nat),
    let r := s.table t
    (∀ v, r.current = some v → v.number = n →
      s.unpin t n = s.setTable t { r with current := some { v with pins := v.pins - 1 } })
    ∧ (∀ w, (∀ v, r.current = some v → v.number ≠ n) → r.retiring = some w → w.number = n →
      (1 < w.pins →
        s.unpin t n = s.setTable t { r with retiring := some { w with pins := w.pins - 1 } })
      ∧ (w.pins = 1 →
        let freed := (s.releasePages w.pages w.faulty).setTable t { r with retiring := none }
        let told := match r.entry.writer with
          | some p => freed.enterEvent p none
              { kind := .retired, table := some t, version := n, result := .ok, extra := 0 }
          | none => freed
        (∀ st limit, r.staged = some st → st.sub = .held limit →
          s.unpin t n = { told with notices := told.notices ++ [t] })
        ∧ ((∀ st limit, r.staged = some st → st.sub ≠ .held limit) → s.unpin t n = told)))

/-- A release puts the sound pages of a version into the free pool, which stays ascending, and its
faulty pages in logical order at the back of the quarantine list; an allocation takes the lowest
free pages in ascending order, or fails and changes nothing. -/
def Obligations.PagesMoveWhole : Prop :=
  (∀ (s : State) (pages faulty : List Nat),
    let t := s.releasePages pages faulty
    t = { s with freePool := t.freePool, quarantine := t.quarantine }
    ∧ t.quarantine = s.quarantine
        ++ (List.range pages.length).filterMap (fun i => if i ∈ faulty then pages[i]? else none)
    ∧ (s.freePool.Pairwise (· < ·) → (s.freePool ++ pages).Nodup →
        t.freePool.Pairwise (· < ·)
        ∧ t.freePool.Perm (s.freePool
          ++ (List.range pages.length).filterMap
            (fun i => if i ∈ faulty then none else pages[i]?))))
  ∧ (∀ (s : State) (n : Nat),
    (n ≤ s.freePool.length → s.allocate n =
      some (s.freePool.take n, { s with freePool := s.freePool.drop n }))
    ∧ (s.freePool.length < n → s.allocate n = none))

/-- The swap: a pinned CURRENT version becomes RETIRING unchanged, an unpinned one is released, the
STAGED version becomes CURRENT unchanged, and NEW_VERSION is entered for the readers and the writer. -/
def Obligations.SwapReplacesTheCurrentVersion : Prop :=
  ∀ (s : State) (t : TableId) (st : Staged), (s.table t).staged = some st →
    (s.table t).retiring = none →
    let r := s.table t
    let swapped := match r.current with
      | some v =>
        if v.pins = 0 then
          (s.releasePages v.pages v.faulty).setTable t
            { r with current := some st.version, staged := none }
        else s.setTable t
          { r with current := some st.version, staged := none, retiring := some v }
      | none => s.setTable t { r with current := some st.version, staged := none }
    s.swap t = swapped.enterEvents r.entry.audience
      { kind := .newVersion, table := some t, version := st.version.number, result := .ok
        extra := (st.version.length + 255) / 256 }

/-! ## Cursors -/

/-- BIND is checked in its order: operands out of range are refused RANGE, an undefined table UNDEFINED, a
port without the right DENIED, and a table without a CURRENT version EMPTY; a refusal changes nothing but
the lease and the response. Past these checks BIND waits while another port's BIND stands at its pin on
the same version, so that a count holds one such pin at most; otherwise it pins the CURRENT version, and
its next turn, whatever has come between, writes the slot and then unpins the version the slot held
before. With an offset not below the length that turn unpins the version it pinned, CURRENT still or
RETIRING by then, and refuses RANGE; where nothing comes between, every pin is as it was. Conventions of
the model stand in it: log 35, 37. -/
def Obligations.BindPinsTheCurrentVersion : Prop :=
  (∀ (p : Port) (slot table : Byte) (offset : Word) (mode stride follow tag : Byte) (s : State)
    (c : SlotId) (t : TableId) (m : Mode) (f : Bool) (v : Version),
    s.asksUnbegun p (.bind slot table offset mode stride follow) tag → s.servesTables p →
    slot.toNat = c.val → table.toNat = t.val → offset.toNat ≤ 4095 → mode = m.code →
    -16 ≤ stride.toInt → stride.toInt ≤ 16 → stride.toInt ≠ 0 →
    follow = (if f then 1 else 0) → (s.table t).entry.defined = true →
    ((s.table t).entry.writer = some p ∨ (s.table t).entry.readers.getLsbD p.val = true) →
    (s.table t).current = some v →
    let new : Binding :=
      { table := t, version := v.number, offset := offset.toNat, mode := m
        stride := stride.toInt, follow := f }
    let counted := (s.leaseRenewed p).setTable t
      { s.table t with current := some { v with pins := v.pins + 1 } }
    let pinned := counted.setTurn p
      (.pinned c new v.length (decide (v.damage ≠ Damage.clear)))
    let standing := ∃ q d x length damaged, s.turn q = .pinned d x length damaged
      ∧ x.table = t ∧ x.version = v.number
    (standing → exec (.bind p slot table offset mode stride follow) s = .next
      ((s.leaseRenewed p).setTurn p .held))
    ∧ (¬standing → exec (.bind p slot table offset mode stride follow) s = .next pinned)
    ∧ (offset.toNat < v.length →
      let bound := counted.setCursor p c (some new)
      exec (.bind p slot table offset mode stride follow) pinned = .next
        ((match s.cursor p c with
          | some old => bound.unpin old.table old.version
          | none => bound).respond p tag
            (replyOk (wordBytes v.number ++ wordBytes v.length)
              { damaged := decide (v.damage ≠ Damage.clear) })))
    ∧ (v.length ≤ offset.toNat →
      exec (.bind p slot table offset mode stride follow) pinned = .next
        ((s.leaseRenewed p).respond p tag (refuse .range))))
  ∧ (∀ (p : Port) (slot table : Byte) (offset : Word) (mode stride follow tag : Byte) (s : State)
    (c : SlotId) (new : Binding) (length : Nat) (damaged : Bool), s.part.state ≠ .reset →
    s.asksAt p (.bind slot table offset mode stride follow) tag (.pinned c new length damaged) →
    (new.offset < length → (s.session p).isOpen = true →
      let bound := s.setCursor p c (some new)
      exec (.bind p slot table offset mode stride follow) s = .next
        ((match s.cursor p c with
          | some old => bound.unpin old.table old.version
          | none => bound).respond p tag
            (replyOk (wordBytes new.version ++ wordBytes length) { damaged := damaged })))
    ∧ (length ≤ new.offset → exec (.bind p slot table offset mode stride follow) s = .next
        ((s.unpin new.table new.version).respond p tag (refuse .range))))
  ∧ (∀ (p : Port) (slot table : Byte) (offset : Word) (mode stride follow tag : Byte) (s : State),
    s.asksUnbegun p (.bind slot table offset mode stride follow) tag → s.servesTables p →
    let refused (st : Status) : Prop := exec (.bind p slot table offset mode stride follow) s = .next
      ((s.leaseRenewed p).respond p tag (refuse st))
    let outOfRange := 3 < slot.toNat ∨ 31 < table.toNat ∨ 4095 < offset.toNat ∨ 2 < mode.toNat
      ∨ stride.toInt < -16 ∨ 16 < stride.toInt ∨ stride.toInt = 0 ∨ 1 < follow.toNat
    (outOfRange → refused .range)
    ∧ (∀ t : TableId, ¬outOfRange → table.toNat = t.val →
      let e := (s.table t).entry
      (e.defined = false → refused .undefined)
      ∧ (e.defined = true → e.writer ≠ some p → e.readers.getLsbD p.val = false → refused .denied)
      ∧ (e.defined = true → (e.writer = some p ∨ e.readers.getLsbD p.val = true) →
        (s.table t).current = none → refused .empty)))

/-- UNBIND makes the slot unbound and unpins its version; an unbound slot is refused UNBOUND. -/
def Obligations.UnbindUnpins : Prop :=
  ∀ (p : Port) (slot tag : Byte) (c : SlotId) (s : State), s.asks p (.unbind slot) tag →
    s.servesTables p → slot.toNat = c.val →
    (∀ b, s.cursor p c = some b → exec (.unbind p slot) s = .next
      ((((s.leaseRenewed p).setCursor p c none).unpin b.table b.version).respond p tag
        (replyOk (byteOf b.table.val :: wordBytes b.version))))
    ∧ (s.cursor p c = none → exec (.unbind p slot) s = .next
        ((s.leaseRenewed p).respond p tag (refuse .unbound)))

/-- SEEK writes an offset below the length of the version the slot holds, which may be RETIRING, and
shows STALE and DAMAGED as the lookup found them; an offset out of range is refused RANGE, and an unbound
slot UNBOUND. -/
def Obligations.SeekSetsTheOffset : Prop :=
  (∀ (p : Port) (slot : Byte) (offset : Word) (tag : Byte) (c : SlotId) (s : State) (b : Binding)
    (v : Version) (isCurrent : Bool),
    s.asks p (.seek slot offset) tag → s.servesTables p → slot.toNat = c.val →
    s.cursor p c = some b → s.lookup b.table b.version = some (v, isCurrent) →
    (offset.toNat < v.length → exec (.seek p slot offset) s = .next
      (((s.leaseRenewed p).setCursor p c (some { b with offset := offset.toNat })).respond p tag
        (replyOk (wordBytes v.number ++ bytesOfWord offset)
          { stale := !isCurrent, damaged := decide (v.damage ≠ Damage.clear) })))
    ∧ (v.length ≤ offset.toNat → exec (.seek p slot offset) s = .next
        ((s.leaseRenewed p).respond p tag (refuse .range))))
  ∧ (∀ (p : Port) (slot : Byte) (offset : Word) (tag : Byte) (c : SlotId) (s : State),
    s.asks p (.seek slot offset) tag → s.servesTables p → slot.toNat = c.val →
    s.cursor p c = none →
    exec (.seek p slot offset) s = .next ((s.leaseRenewed p).respond p tag (refuse .unbound)))

/-- A RING step goes to the remainder of offset plus stride by the length, and never to END. -/
def Obligations.RingStepWrapsByTheLength : Prop :=
  ∀ (offset : Nat) (stride : Int) (length : Nat), 1 ≤ length →
    (Mode.step .ring offset stride length : Int) = ((offset : Int) + stride) % (length : Int)
    ∧ Mode.step .ring offset stride length < length
    ∧ (length = 1 → Mode.step .ring offset stride length = 0)
    ∧ Mode.step .ring 3 (-5) 300 = 298
    ∧ ∀ (b : Binding), b.mode = .ring → b.atEnd length = false

/-- A LINEAR step goes to offset plus stride where that lies in the version and to END otherwise, in
both directions; a PAGE step stays in the logical page of the offset, wrapping by its span. -/
def Obligations.LinearAndPageStepsStayInBounds : Prop :=
  ∀ (offset : Nat) (stride : Int) (length : Nat), offset < length →
    (0 ≤ (offset : Int) + stride → (offset : Int) + stride < length →
      (Mode.step .linear offset stride length : Int) = (offset : Int) + stride)
    ∧ ((offset : Int) + stride < 0 ∨ (length : Int) ≤ (offset : Int) + stride →
      Mode.step .linear offset stride length = length)
    ∧ (let base := offset / 256 * 256
       let span := min 256 (length - base)
       (Mode.step .page offset stride length : Int)
          = base + ((offset : Int) - base + stride) % (span : Int)
       ∧ Mode.step .page offset stride length / 256 = offset / 256
       ∧ Mode.step .page offset stride length < length)

/-- Of the requestors that wait, the arbiter grants the first from its pointer on, and the pointer moves
past it; FETCH and PEEK wait while their session is OPEN. FETCH on a slot that no rebind moves: the words
at the offsets of the walk, in order, up to count or END, with the slot left at the next offset; nothing
else changes but the lease, the arbiter's pointer and the response. It begins by fixing its version and
goes on from there. A command of it reads at most `words` words, so that other steps may come between any
two; where another requestor waits it reads one word in each turn in which it is granted, none in one in
which it is not; it answers after its last word, or at END. An unbound slot is refused UNBOUND. Conventions
of the model stand in it: log 16, 35. -/
def Obligations.FetchReturnsTheWords : Prop :=
  (∀ (s : State),
    (∀ r, s.grants r = true ↔
      ∀ q, s.waits q = true → r.placesAfter s.arbiter ≤ q.placesAfter s.arbiter)
    ∧ (∀ r q, s.grant r = { s with arbiter := r.next }
      ∧ (q ≠ r → q.placesAfter r.next < r.placesAfter r.next))
    ∧ (∀ p, s.waits (.portEngine p) = true ↔
      (s.session p).isOpen = true ∧ ∃ job, s.turn p = .reading job)
    ∧ (s.waits .staging = true ↔
      (∃ p job, (s.session p).isOpen = true ∧ s.turn p = .writing job)
        ∨ ∃ t rest st, s.workList = t :: rest ∧ (s.table t).staged = some st
          ∧ ((∃ k, st.sub = .filling k ∧ k ≠ .store) ∨ ∃ n, st.sub = .summing n))
    ∧ (s.waits .imageStore = true ↔
      (∃ job offset, s.imageWork = .persistProgramming job offset)
        ∨ ∃ job, s.imageWork = .reading job))
  ∧ (∀ (p : Port) (slot count tag : Byte) (words : Nat) (c : SlotId) (s : State) (b : Binding)
    (v : Version) (isCurrent : Bool),
    s.asks p (.fetch slot count) tag → s.servesTables p → slot.toNat = c.val →
    1 ≤ count.toNat → count.toNat ≤ 16 → s.cursor p c = some b →
    s.lookup b.table b.version = some (v, isCurrent) → (b.follow = true → isCurrent = true) →
    let offsets := fetchOffsets b v.length count.toNat
    let after := fetchEnd b v.length count.toNat
    (s.waiting = [] → count.toNat ≤ words → s.soundAt v.pages offsets →
      exec (.fetch p slot count words) s = .next (({ (s.leaseRenewed p).setCursor p c
          (some { b with offset := after }) with
          arbiter := if offsets = [] then s.arbiter else Requestor.next (.portEngine p) } :
            State).respond p tag
        (replyOk (wordBytes v.number ++ wordBytes after
            ++ (s.wordsAt v.pages offsets).flatMap bytesOfWord)
          { endReached := decide (b.mode = .linear ∧ after = v.length)
            stale := !isCurrent, damaged := decide (v.damage ≠ Damage.clear) })))
    ∧ exec (.fetch p slot count words) s = exec (.fetch p slot count words)
        ((s.leaseRenewed p).setTurn p (.reading
          { walk := .fetch c, table := b.table, number := v.number, length := v.length
            pages := v.pages, stale := !isCurrent, rebound := false, words := []
            left := count.toNat })))
  ∧ (∀ (p : Port) (slot count tag : Byte) (words : Nat) (c : SlotId) (s : State) (b : Binding)
    (job : ReadJob) (v : Version) (isCurrent : Bool),
    s.asksAt p (.fetch slot count) tag (.reading job) → s.servesTables p → job.walk = .fetch c →
    s.cursor p c = some b → 1 ≤ job.left →
    s.lookup job.table job.number = some (v, isCurrent) →
    let word := s.versionWord job.pages b.offset
    let after : Binding := { b with offset := b.mode.step b.offset b.stride job.length }
    let read : State :=
      { (s.leaseRenewed p).setCursor p c (some after) with
        arbiter := Requestor.next (.portEngine p) }
    let next : ReadJob :=
      { job with words := job.words ++ [valueOf word], left := job.left - 1 }
    let answer (x : State) (slotNow : Binding) (ws : List Word) : Host.Outcome State Fault Refusal :=
      .next (x.respond p tag
        (replyOk (wordBytes job.number ++ wordBytes slotNow.offset ++ ws.flatMap bytesOfWord)
          { endReached := decide (b.mode = .linear ∧ slotNow.offset = job.length)
            stale := job.stale, rebound := job.rebound
            damaged := decide (v.damage ≠ Damage.clear) }))
    (b.atEnd job.length = true →
      exec (.fetch p slot count words) s = answer (s.leaseRenewed p) b job.words)
    ∧ (b.atEnd job.length = false →
      (words = 0 ∨ s.grants (.portEngine p) = false →
        exec (.fetch p slot count words) s = .next (s.leaseRenewed p))
      ∧ (1 ≤ words → s.grants (.portEngine p) = true → oddOnes word = true →
        (1 < job.left → after.atEnd job.length = false →
          (words = 1 ∨ (∃ q, q ≠ .portEngine p ∧ s.waits q = true) →
            exec (.fetch p slot count words) s = .next (read.setTurn p (.reading next)))
          ∧ (1 < words → exec (.fetch p slot count words) s
            = exec (.fetch p slot count (words - 1)) (read.setTurn p (.reading next))))
        ∧ (job.left = 1 ∨ after.atEnd job.length = true →
          exec (.fetch p slot count words) s = answer read after next.words))))
  ∧ (∀ (p : Port) (slot count tag : Byte) (words : Nat) (c : SlotId) (s : State),
    s.asks p (.fetch slot count) tag → s.servesTables p → slot.toNat = c.val →
    1 ≤ count.toNat → count.toNat ≤ 16 → s.cursor p c = none →
    exec (.fetch p slot count words) s = .next ((s.leaseRenewed p).respond p tag (refuse .unbound)))

/-- FETCH that meets a parity error: the words before it, PARITY and DAMAGED, the slot left at the
faulty word, and its page in the version's faulty set; table memory keeps every word. In turns too it
reports the error first and then answers with the words read before. Conventions of the model stand in
it: log 16, 35. -/
def Obligations.FetchStopsAtAParityError : Prop :=
  (∀ (p : Port) (slot count tag : Byte) (words : Nat) (c : SlotId) (s : State) (b : Binding)
    (v : Version) (isCurrent : Bool) (before : List Nat) (o : Nat) (later : List Nat),
    s.asks p (.fetch slot count) tag → s.servesTables p → slot.toNat = c.val → s.waiting = [] →
    count.toNat ≤ words → 1 ≤ count.toNat → count.toNat ≤ 16 → s.cursor p c = some b →
    s.lookup b.table b.version = some (v, isCurrent) → (b.follow = true → isCurrent = true) →
    fetchOffsets b v.length count.toNat = before ++ o :: later → s.soundAt v.pages before →
    oddOnes (s.versionWord v.pages o) = false →
    ∃ t w, exec (.fetch p slot count words) s = .next t
      ∧ (t.engine p).buffer =
        { tag := tag, status := .ok
          flags := Flags.byte { stale := !isCurrent, parity := true, damaged := true }
          data := wordBytes v.number ++ wordBytes o
            ++ (s.wordsAt v.pages before).flatMap bytesOfWord }
      ∧ (t.engine p).inProgress = none
      ∧ t.cursor p c = some { b with offset := o }
      ∧ t.lookup b.table b.version = some (w, isCurrent) ∧ o / 256 ∈ w.faulty
      ∧ w.damage = (if v.damage = Damage.clear then .parity else v.damage) ∧ w.pins = v.pins
      ∧ t = { (s.leaseRenewed p).withRecordsOf t with
          engines := t.engines, cursors := t.cursors, arbiter := Requestor.next (.portEngine p) }
      ∧ (∀ q, q ≠ p → t.engine q = s.engine q)
      ∧ (∀ q d, (q, d) ≠ (p, c) → t.cursor q d = s.cursor q d)
      ∧ (∀ u, u ≠ b.table → t.table u = s.table u))
  ∧ (∀ (p : Port) (slot count tag : Byte) (words : Nat) (c : SlotId) (s : State) (b : Binding)
    (job : ReadJob) (v : Version) (isCurrent : Bool),
    s.asksAt p (.fetch slot count) tag (.reading job) → s.servesTables p → job.walk = .fetch c →
    s.cursor p c = some b → b.atEnd job.length = false → 1 ≤ job.left → 1 ≤ words →
    s.lookup job.table job.number = some (v, isCurrent) →
    s.grants (.portEngine p) = true → oddOnes (s.versionWord job.pages b.offset) = false →
    exec (.fetch p slot count words) s = .next ((({ s.leaseRenewed p with
        arbiter := Requestor.next (.portEngine p) } : State).parityReport job.table job.number
          (b.offset / 256)).respond p tag
      (replyOk (wordBytes job.number ++ wordBytes b.offset ++ job.words.flatMap bytesOfWord)
        { stale := job.stale, rebound := job.rebound, parity := true, damaged := true })))

/-- PEEK on a slot that no rebind moves: count words from the offset, the cursor unmoved; a range past
the length is refused RANGE; a parity error is reported first, and the answer holds the words before it,
PARITY and DAMAGED. It begins by fixing its version and goes on from there. A command of it reads at most
`words` words, so that other steps may come between any two; where another requestor waits it reads one word
in each turn in which it is granted, none in one in which it is not. An unbound slot is refused UNBOUND.
Conventions of the model stand in it: log 16, 35. -/
def Obligations.PeekReturnsTheWords : Prop :=
  (∀ (p : Port) (slot : Byte) (offset : Word) (count tag : Byte) (words : Nat) (c : SlotId)
    (s : State) (b : Binding) (v : Version) (isCurrent : Bool),
    s.asks p (.peek slot offset count) tag → s.servesTables p → slot.toNat = c.val →
    offset.toNat ≤ 4095 → 1 ≤ count.toNat → count.toNat ≤ 16 → s.cursor p c = some b →
    s.lookup b.table b.version = some (v, isCurrent) → (b.follow = true → isCurrent = true) →
    let offsets := (List.range count.toNat).map (fun i => offset.toNat + i)
    let granted : State :=
      { s.leaseRenewed p with arbiter := Requestor.next (.portEngine p) }
    (offset.toNat + count.toNat ≤ v.length → s.waiting = [] → count.toNat ≤ words →
      s.soundAt v.pages offsets → exec (.peek p slot offset count words) s = .next (granted.respond p tag
        (replyOk (wordBytes v.number ++ bytesOfWord offset
            ++ (s.wordsAt v.pages offsets).flatMap bytesOfWord)
          { stale := !isCurrent, damaged := decide (v.damage ≠ Damage.clear) })))
    ∧ (∀ before o later, offset.toNat + count.toNat ≤ v.length → s.waiting = [] →
      count.toNat ≤ words → offsets = before ++ o :: later → s.soundAt v.pages before →
      oddOnes (s.versionWord v.pages o) = false →
      exec (.peek p slot offset count words) s = .next
        ((granted.parityReport b.table v.number (o / 256)).respond p tag
          (replyOk (wordBytes v.number ++ bytesOfWord offset
              ++ (s.wordsAt v.pages before).flatMap bytesOfWord)
            { stale := !isCurrent, parity := true, damaged := true })))
    ∧ (offset.toNat + count.toNat ≤ v.length →
      exec (.peek p slot offset count words) s = exec (.peek p slot offset count words)
        ((s.leaseRenewed p).setTurn p (.reading
          { walk := .peek offset.toNat, table := b.table, number := v.number, length := v.length
            pages := v.pages, stale := !isCurrent, rebound := false, words := []
            left := count.toNat })))
    ∧ (v.length < offset.toNat + count.toNat → exec (.peek p slot offset count words) s = .next
        ((s.leaseRenewed p).respond p tag (refuse .range))))
  ∧ (∀ (p : Port) (slot : Byte) (offset : Word) (count tag : Byte) (words start : Nat) (s : State)
    (job : ReadJob) (v : Version) (isCurrent : Bool),
    s.asksAt p (.peek slot offset count) tag (.reading job) → s.servesTables p →
    job.walk = .peek start → 1 ≤ job.left →
    s.lookup job.table job.number = some (v, isCurrent) →
    let o := start + job.words.length
    let word := s.versionWord job.pages o
    let next : ReadJob :=
      { job with words := job.words ++ [valueOf word], left := job.left - 1 }
    let granted : State :=
      { s.leaseRenewed p with arbiter := Requestor.next (.portEngine p) }
    (words = 0 ∨ s.grants (.portEngine p) = false →
      exec (.peek p slot offset count words) s = .next (s.leaseRenewed p))
    ∧ (1 ≤ words → s.grants (.portEngine p) = true → oddOnes word = true →
      (1 < job.left →
        (words = 1 ∨ (∃ q, q ≠ .portEngine p ∧ s.waits q = true) →
          exec (.peek p slot offset count words) s = .next (granted.setTurn p (.reading next)))
        ∧ (1 < words → exec (.peek p slot offset count words) s
          = exec (.peek p slot offset count (words - 1)) (granted.setTurn p (.reading next))))
      ∧ (job.left = 1 → exec (.peek p slot offset count words) s = .next (granted.respond p tag
          (replyOk (wordBytes job.number ++ wordBytes start ++ next.words.flatMap bytesOfWord)
            { stale := job.stale, rebound := job.rebound
              damaged := decide (v.damage ≠ Damage.clear) }))))
    ∧ (1 ≤ words → s.grants (.portEngine p) = true → oddOnes word = false →
      exec (.peek p slot offset count words) s = .next
        ((granted.parityReport job.table job.number (o / 256)).respond p tag
          (replyOk (wordBytes job.number ++ wordBytes start ++ job.words.flatMap bytesOfWord)
            { stale := job.stale, rebound := job.rebound, parity := true, damaged := true }))))
  ∧ (∀ (p : Port) (slot : Byte) (offset : Word) (count tag : Byte) (words : Nat) (c : SlotId)
    (s : State), s.asks p (.peek slot offset count) tag → s.servesTables p → slot.toNat = c.val →
    offset.toNat ≤ 4095 → 1 ≤ count.toNat → count.toNat ≤ 16 → s.cursor p c = none →
    exec (.peek p slot offset count words) s = .next
      ((s.leaseRenewed p).respond p tag (refuse .unbound)))

/-- RESYNC leaves a slot on the CURRENT version as it is; a slot on another version is moved: the
CURRENT version is pinned, the old one unpinned, and the offset kept where it is below the new length,
and otherwise set to END in LINEAR mode and to 0 in the others. A FETCH or a PEEK on a FOLLOW slot whose
version is no longer CURRENT first makes the same move, pin and unpin included; it reads the new version
from the offset the move left (FETCH) or from its own (PEEK), and shows REBOUND and the new number. A PEEK
out of that version's range is refused RANGE with REBOUND, and the move stands. A RESYNC of an unbound slot
is refused UNBOUND. Conventions of the model stand in it: log 16, 21, 35. -/
def Obligations.SlotsMoveToTheCurrentVersion : Prop :=
  (∀ (p : Port) (slot tag : Byte) (c : SlotId) (s : State) (b : Binding) (v : Version),
    s.asks p (.resync slot) tag → s.servesTables p → slot.toNat = c.val →
    s.cursor p c = some b → (s.table b.table).current = some v →
    (v.number = b.version → exec (.resync p slot) s = .next ((s.leaseRenewed p).respond p tag
      (replyOk (wordBytes v.number ++ wordBytes b.offset)
        { damaged := decide (v.damage ≠ Damage.clear) })))
    ∧ (v.number ≠ b.version →
      let offset := if b.offset < v.length then b.offset
        else if b.mode = .linear then v.length else 0
      exec (.resync p slot) s = .next
        (((((s.leaseRenewed p).setTable b.table { s.table b.table with
            current := some { v with pins := v.pins + 1 } }).unpin b.table b.version).setCursor p c
              (some { b with version := v.number, offset := offset })).respond p tag
          (replyOk (wordBytes v.number ++ wordBytes offset)
            { rebound := true, damaged := decide (v.damage ≠ Damage.clear) }))))
  ∧ (∀ (p : Port) (slot tag : Byte) (c : SlotId) (s : State), s.asks p (.resync slot) tag →
    s.servesTables p → slot.toNat = c.val → s.cursor p c = none →
    exec (.resync p slot) s = .next ((s.leaseRenewed p).respond p tag (refuse .unbound)))
  ∧ (∀ (p : Port) (slot tag : Byte) (words : Nat) (c : SlotId) (s : State) (b : Binding)
    (v : Version),
    s.servesTables p → slot.toNat = c.val → s.cursor p c = some b → b.follow = true →
    (s.table b.table).current = some v → v.number ≠ b.version →
    let slotAfter : Binding :=
      { b with
        version := v.number
        offset := if b.offset < v.length then b.offset
          else if b.mode = .linear then v.length else 0 }
    let moved : State := (((s.leaseRenewed p).setTable b.table { s.table b.table with
      current := some { v with pins := v.pins + 1 } }).unpin b.table b.version).setCursor p c
        (some slotAfter)
    let fixed (walk : Walk) (count : Nat) : State := moved.setTurn p (.reading
      { walk := walk, table := b.table, number := v.number, length := v.length, pages := v.pages
        stale := false, rebound := true, words := [], left := count })
    (∀ count : Byte, s.asks p (.fetch slot count) tag → 1 ≤ count.toNat → count.toNat ≤ 16 →
      let offsets := fetchOffsets slotAfter v.length count.toNat
      let after := fetchEnd slotAfter v.length count.toNat
      (s.waiting = [] → count.toNat ≤ words → s.soundAt v.pages offsets →
        exec (.fetch p slot count words) s = .next
        (({ moved.setCursor p c (some { slotAfter with offset := after }) with
            arbiter := if offsets = [] then s.arbiter else Requestor.next (.portEngine p) } :
              State).respond p tag
          (replyOk (wordBytes v.number ++ wordBytes after
              ++ (s.wordsAt v.pages offsets).flatMap bytesOfWord)
            { endReached := decide (b.mode = .linear ∧ after = v.length), rebound := true
              damaged := decide (v.damage ≠ Damage.clear) })))
      ∧ exec (.fetch p slot count words) s
        = exec (.fetch p slot count words) (fixed (.fetch c) count.toNat))
    ∧ (∀ (offset : Word) (count : Byte), s.asks p (.peek slot offset count) tag →
      offset.toNat ≤ 4095 → 1 ≤ count.toNat → count.toNat ≤ 16 →
      let offsets := (List.range count.toNat).map (fun i => offset.toNat + i)
      (offset.toNat + count.toNat ≤ v.length → s.waiting = [] → count.toNat ≤ words →
        s.soundAt v.pages offsets → exec (.peek p slot offset count words) s = .next
          (({ moved with arbiter := Requestor.next (.portEngine p) } : State).respond p tag
            (replyOk (wordBytes v.number ++ bytesOfWord offset
                ++ (s.wordsAt v.pages offsets).flatMap bytesOfWord)
              { rebound := true, damaged := decide (v.damage ≠ Damage.clear) })))
      ∧ (offset.toNat + count.toNat ≤ v.length →
        exec (.peek p slot offset count words) s
          = exec (.peek p slot offset count words) (fixed (.peek offset.toNat) count.toNat))
      ∧ (v.length < offset.toNat + count.toNat → exec (.peek p slot offset count words) s = .next
        (moved.respond p tag { refuse .range with flags := Flags.byte { rebound := true } }))))

/-- CURSOR_INFO answers the slot's context with END, STALE and DAMAGED, or that it is unbound, and
changes nothing but the lease and the response. -/
def Obligations.CursorInfoReportsTheSlot : Prop :=
  ∀ (p : Port) (slot tag : Byte) (c : SlotId) (s : State), s.asks p (.cursorInfo slot) tag →
    s.servesTables p → slot.toNat = c.val →
    (s.cursor p c = none → exec (.cursorInfo p slot) s = .next ((s.leaseRenewed p).respond p tag
      (replyOk [0, 0xFF, 0, 0, 0, 0, 0, 0, 0, 0, 0])))
    ∧ (∀ b v isCurrent, s.cursor p c = some b →
      s.lookup b.table b.version = some (v, isCurrent) →
      exec (.cursorInfo p slot) s = .next ((s.leaseRenewed p).respond p tag
        (replyOk ([1, byteOf b.table.val] ++ wordBytes b.version ++ wordBytes b.offset
            ++ [b.mode.code, BitVec.ofInt 8 b.stride, if b.follow then 1 else 0]
            ++ wordBytes v.length)
          { endReached := decide (b.mode = .linear ∧ b.offset = v.length)
            stale := !isCurrent, damaged := decide (v.damage ≠ Damage.clear) })))

/-! ## Save stacks -/

/-- SAVE pushes a copy of the slot's context and pins its version once more; a stack of four is
refused STACK_FULL. -/
def Obligations.SavePushesTheContext : Prop :=
  ∀ (p : Port) (slot tag : Byte) (c : SlotId) (s : State), s.asks p (.save slot) tag →
    s.servesTables p → slot.toNat = c.val →
    ((s.stack p).length < 4 →
      (s.cursor p c = none → exec (.save p slot) s = .next
        (((s.leaseRenewed p).setStack p (none :: s.stack p)).respond p tag
          (replyOk [byteOf ((s.stack p).length + 1), 0xFF, 0, 0])))
      ∧ (∀ b, s.cursor p c = some b →
        let r := s.table b.table
        let pushed (r1 : TableRecord) : State :=
          ((s.leaseRenewed p).setTable b.table r1).setStack p (some b :: s.stack p)
        let reply := replyOk ([byteOf ((s.stack p).length + 1), byteOf b.table.val]
          ++ wordBytes b.version)
        (∀ v, r.current = some v → v.number = b.version → exec (.save p slot) s = .next
          ((pushed { r with current := some { v with pins := v.pins + 1 } }).respond p tag reply))
        ∧ (∀ w, (∀ v, r.current = some v → v.number ≠ b.version) → r.retiring = some w →
          w.number = b.version → exec (.save p slot) s = .next
          ((pushed { r with retiring := some { w with pins := w.pins + 1 } }).respond p tag
            reply))))
    ∧ (4 ≤ (s.stack p).length → exec (.save p slot) s = .next
        ((s.leaseRenewed p).respond p tag (refuse .stackFull)))

/-- RESTORE pops the top context into the slot with its pin and unpins the version the slot held; an
empty stack is refused STACK_EMPTY. -/
def Obligations.RestorePopsTheContext : Prop :=
  ∀ (p : Port) (slot tag : Byte) (c : SlotId) (s : State), s.asks p (.restore slot) tag →
    s.servesTables p → slot.toNat = c.val →
    (s.stack p = [] → exec (.restore p slot) s = .next
      ((s.leaseRenewed p).respond p tag (refuse .stackEmpty)))
    ∧ (∀ x rest, s.stack p = x :: rest →
      let moved := ((s.leaseRenewed p).setStack p rest).setCursor p c x
      let after := match s.cursor p c with
        | some old => moved.unpin old.table old.version
        | none => moved
      (x = none → exec (.restore p slot) s = .next (after.respond p tag
        (replyOk [byteOf rest.length, 0xFF, 0, 0, 0, 0])))
      ∧ (∀ b v isCurrent, x = some b → after.lookup b.table b.version = some (v, isCurrent) →
        exec (.restore p slot) s = .next (after.respond p tag
          (replyOk ([byteOf rest.length, byteOf b.table.val] ++ wordBytes b.version
              ++ wordBytes b.offset)
            { endReached := decide (b.mode = .linear ∧ b.offset = v.length)
              stale := !isCurrent, damaged := decide (v.damage ≠ Damage.clear) }))))

/-- DISCARD removes the top context and unpins its version; an empty stack is refused STACK_EMPTY; no
slot changes. -/
def Obligations.DiscardDropsTheTop : Prop :=
  ∀ (p : Port) (tag : Byte) (s : State), s.asks p .discard tag → s.servesTables p →
    (s.stack p = [] → exec (.discard p) s = .next
      ((s.leaseRenewed p).respond p tag (refuse .stackEmpty)))
    ∧ (∀ rest, s.stack p = none :: rest → exec (.discard p) s = .next
      (((s.leaseRenewed p).setStack p rest).respond p tag
        (replyOk [byteOf rest.length, 0xFF, 0, 0])))
    ∧ (∀ b rest, s.stack p = some b :: rest → exec (.discard p) s = .next
      ((((s.leaseRenewed p).setStack p rest).unpin b.table b.version).respond p tag
        (replyOk ([byteOf rest.length, byteOf b.table.val] ++ wordBytes b.version))))

/-! ## Staging -/

/-- STAGE with a ZERO, VALUE or COPY fill takes the lowest free pages, creates the STAGED version in
FILLING under the table's next version number, or the first after it that neither its CURRENT nor its
RETIRING version has (1 follows 65535), and puts the table at the back of the work list. STAGE with a
STORE fill takes no page and puts a STORE_READ at the back of the image store queue. The refusals
after the range of the table id come in their order, and change nothing but the lease and the
response. -/
def Obligations.StageCreatesAVersion : Prop :=
  (∀ (p : Port) (table : Byte) (length : Word) (fill : Byte) (value : Word) (tag : Byte) (t : TableId)
    (s : State), s.asks p (.stage table length fill value) tag → s.servesTables p →
    table.toNat = t.val → s.writes p t → (s.table t).staged = none →
    let r := s.table t
    let following (n : Nat) : Nat := if 65535 ≤ n then 1 else n + 1
    let held (n : Nat) : Bool :=
      r.current.any (fun v => v.number = n) || r.retiring.any (fun v => v.number = n)
    let first := r.nextVersion
    let second := following first
    let number :=
      if held first = false then first else if held second = false then second
      else following second
    let created (pages : List Nat) (kind : FillKind) : TableRecord :=
      { r with
        nextVersion := following number
        staged := some
          { version :=
              { number := number, length := length.toNat, pages := pages, check := none, pins := 0
                damage := .clear, faulty := [] }
            sub := .filling kind
            session := (s.session p).number } }
    let n := (length.toNat + 255) / 256
    let filled (kind : FillKind) (source : Nat) (damaged : Bool) : Prop :=
      exec (.stage p table length fill value) s = .next
        (({ (s.leaseRenewed p).setTable t (created (s.freePool.take n) kind) with
            freePool := s.freePool.drop n, workList := s.workList ++ [t] } : State).respond p tag
          (replyAccepted (wordBytes number ++ [byteOf n] ++ wordBytes source)
            { damaged := damaged }))
    (1 ≤ length.toNat → length.toNat ≤ r.entry.maxPages * 256 → length.toNat ≤ 4096 →
      n ≤ s.freePool.length →
      (fill = 0 → filled .zero 0 false)
      ∧ (fill = 1 → filled (.value value) 0 false)
      ∧ (∀ v, fill = 2 → r.current = some v →
          filled (.copy v.number) v.number (decide (v.damage ≠ Damage.clear))))
    ∧ (fill = 3 → length = 0 → r.entry.persistent = true → s.imageQueue.length < 4 →
      exec (.stage p table length fill value) s = .next
        (({ (s.leaseRenewed p).setTable t (created [] .store) with
            imageQueue := s.imageQueue
              ++ [{ op := .storeRead t, port := p, session := (s.session p).number }] } :
            State).respond p tag
          (replyAccepted (wordBytes number ++ [0, 0, 0])))))
  ∧ (∀ (p : Port) (table : Byte) (length : Word) (fill : Byte) (value : Word) (tag : Byte) (t : TableId)
    (s : State), s.asks p (.stage table length fill value) tag → s.servesTables p →
    table.toNat = t.val →
    let r := s.table t
    let refused (st : Status) : Prop := exec (.stage p table length fill value) s = .next
      ((s.leaseRenewed p).respond p tag (refuse st))
    if r.entry.defined = false then refused .undefined
    else if r.entry.writer ≠ some p then refused .denied
    else if 4096 < length.toNat then refused .range
    else if 3 < fill.toNat then refused .range
    else if fill ≠ 3 ∧ length = 0 ∨ fill = 3 ∧ length ≠ 0 then refused .range
    else if fill ≠ 3 ∧ r.entry.maxPages * 256 < length.toNat then refused .range
    else if fill = 3 ∧ r.entry.persistent = false then refused .notPersistent
    else if r.staged.isSome then refused .stageExists
    else if fill = 2 ∧ r.current = none then refused .empty
    else if fill = 3 ∧ 4 ≤ s.imageQueue.length then refused .queueFull
    else if fill ≠ 3 ∧ s.freePool.length < (length.toNat + 255) / 256 then refused .noSpace
    else True)

/-- WRITE into an OPEN version stores every word at its offset with odd parity, and every other word of
table memory, the version's record and every other block stay as they were. It waits while another WRITE
is between two words, or a COPY fill's word is read and not yet written; where another requestor waits it
stores one word in each turn in which it is granted, none in one in which it is not, and answers after its
last word. Words past the length of the version are refused RANGE, and nothing is stored. Conventions of the
model stand in it: log 16, 35. -/
def Obligations.WriteStoresTheWords : Prop :=
  (∀ (p : Port) (table : Byte) (offset : Word) (words : List Word) (tag : Byte) (t : TableId)
    (st : Staged) (s : State), s.asksUnbegun p (.write table offset words) tag → s.servesTables p →
    table.toNat = t.val → offset.toNat ≤ 4095 → s.writes p t → (s.table t).staged = some st →
    st.sub = .opened → words ≠ [] → offset.toNat + words.length ≤ st.version.length →
    let held := s.writeWaits = true ∨ ∃ w x, s.headWork = some w ∧ w.copied = some x
    (held → exec (.write p table offset words) s = .next ((s.leaseRenewed p).setTurn p .held))
    ∧ (¬held → exec (.write p table offset words) s = exec (.write p table offset words)
        ((s.leaseRenewed p).setTurn p (.writing
          { number := st.version.number, pages := st.version.pages, offset := offset.toNat
            words := words, count := words.length })))
    ∧ (¬held → (∀ q, s.waits q = true → q = .staging) →
      st.version.pages.Nodup → (∀ x ∈ st.version.pages, x < 128) →
      st.version.length ≤ st.version.pages.length * 256 →
      ∃ t', exec (.write p table offset words) s = .next t'
        ∧ t' = { (s.leaseRenewed p).respond p tag
              (replyOk (wordBytes st.version.number ++ [byteOf words.length])) with
            mem := t'.mem, arbiter := .imageStore }
        ∧ (∀ i w a, words[i]? = some w →
            wordAddress st.version.pages (offset.toNat + i) = some a →
            ∃ c, Memory.read t'.mem a = some c ∧ valueOf c = w ∧ oddOnes c = true)
        ∧ (∀ a, (∀ i, i < words.length →
              wordAddress st.version.pages (offset.toNat + i) ≠ some a) →
            Memory.read t'.mem a = Memory.read s.mem a)))
  ∧ (∀ (p : Port) (table : Byte) (offset : Word) (all : List Word) (tag : Byte) (job : WriteJob)
    (w : Word) (rest : List Word) (a : Nat) (s : State),
    s.asksAt p (.write table offset all) tag (.writing job) → s.admits p →
    job.words = w :: rest → wordAddress job.pages job.offset = some a →
    let stored : State :=
      { s.leaseRenewed p with
        mem := Memory.write s.mem a (storedOf w), arbiter := .imageStore }
    (s.grants .staging = false → exec (.write p table offset all) s = .next (s.leaseRenewed p))
    ∧ (s.grants .staging = true →
      (rest ≠ [] → (∃ q, q ≠ .staging ∧ s.waits q = true) →
        exec (.write p table offset all) s = .next (stored.setTurn p
          (.writing { job with offset := job.offset + 1, words := rest })))
      ∧ (rest = [] → exec (.write p table offset all) s = .next (stored.respond p tag
          (replyOk (wordBytes job.number ++ [byteOf job.count]))))))
  ∧ (∀ (p : Port) (table : Byte) (offset : Word) (words : List Word) (tag : Byte) (t : TableId)
    (st : Staged) (s : State), s.asksUnbegun p (.write table offset words) tag → s.servesTables p →
    table.toNat = t.val → offset.toNat ≤ 4095 → s.writes p t → (s.table t).staged = some st →
    st.sub = .opened → st.version.length < offset.toNat + words.length →
    exec (.write p table offset words) s = .next
      ((s.leaseRenewed p).respond p tag (refuse .range)))

/-- COMMIT of an OPEN version sets SUMMING with its hold limit and puts the table at the back of the
work list; WRITE and COMMIT are refused BUSY in every other sub-state, and WRITE, COMMIT and ABORT
NOT_STAGED where the table has no STAGED version. Before that the three are refused RANGE for a table id
above 31 or a WRITE offset above 4,095, UNDEFINED for an undefined table, and DENIED to any port but its
writer. -/
def Obligations.CommitQueuesTheSumming : Prop :=
  (∀ (p : Port) (table tag : Byte) (t : TableId) (s : State), s.servesTables p →
    table.toNat = t.val → s.writes p t →
    let refused (i : Instr) (st : Status) : Prop :=
      exec i s = .next ((s.leaseRenewed p).respond p tag (refuse st))
    (∀ hold st, s.asks p (.commit table hold) tag → (s.table t).staged = some st →
      (st.sub = .opened → exec (.commit p table hold) s = .next
        (({ (s.leaseRenewed p).setTable t { s.table t with
              staged := some { st with sub := .summing hold.toNat } } with
            workList := s.workList ++ [t] } : State).respond p tag
          (replyAccepted (wordBytes st.version.number))))
      ∧ (st.sub ≠ .opened → refused (.commit p table hold) .busy))
    ∧ (∀ offset words st, s.asks p (.write table offset words) tag → offset.toNat ≤ 4095 →
      (s.table t).staged = some st → st.sub ≠ .opened →
      refused (.write p table offset words) .busy)
    ∧ ((s.table t).staged = none →
      (∀ hold, s.asks p (.commit table hold) tag → refused (.commit p table hold) .notStaged)
      ∧ (∀ offset words, s.asks p (.write table offset words) tag → offset.toNat ≤ 4095 →
          refused (.write p table offset words) .notStaged)
      ∧ (s.asks p (.abort table) tag → refused (.abort p table) .notStaged)))
  ∧ (∀ (p : Port) (table tag : Byte) (s : State), s.servesTables p →
    let refused (i : Instr) (st : Status) : Prop :=
      exec i s = .next ((s.leaseRenewed p).respond p tag (refuse st))
    let each (st : Status) : Prop :=
      (∀ hold, s.asks p (.commit table hold) tag → refused (.commit p table hold) st)
      ∧ (∀ offset words, s.asks p (.write table offset words) tag → offset.toNat ≤ 4095 →
          refused (.write p table offset words) st)
      ∧ (s.asks p (.abort table) tag → refused (.abort p table) st)
    (31 < table.toNat → each .range)
    ∧ (∀ offset words, s.asks p (.write table offset words) tag → 4095 < offset.toNat →
        refused (.write p table offset words) .range)
    ∧ (∀ t : TableId, table.toNat = t.val →
      ((s.table t).entry.defined = false → each .undefined)
      ∧ ((s.table t).entry.defined = true → (s.table t).entry.writer ≠ some p → each .denied)))

/-- ABORT releases the STAGED version in any sub-state and answers its number and sub-state: its pages
go to the pool, the table's work leaves the work list or the image store queue, a COPY source in hand is
unpinned, the other tables stay as they were, no event is entered for the aborted version, and table
memory keeps every word. -/
def Obligations.AbortReleasesTheVersion : Prop :=
  ∀ (p : Port) (table tag : Byte) (t : TableId) (st : Staged) (s : State),
    s.asks p (.abort table) tag → s.servesTables p → table.toNat = t.val → s.writes p t →
    (s.table t).staged = some st →
    let renewed := s.leaseRenewed p
    let released (x : State) : State := (x.releasePages st.version.pages
      st.version.faulty).setTable t { x.table t with staged := none }
    let answered (x : State) : State :=
      x.respond p tag (replyOk (wordBytes st.version.number ++ [st.sub.code]))
    let unlisted (x : State) : State :=
      { x with
        workList := s.workList.filter (fun u => u ≠ t)
        headWork := if s.workList.head? = some t then none else s.headWork }
    ∃ t', exec (.abort p table) s = .next t'
      ∧ (st.sub = .opened ∨ (∃ n, st.sub = .held n) → t' = answered (released renewed))
      ∧ ((∃ k, st.sub = .filling k ∧ k ≠ .store) ∨ (∃ n, st.sub = .summing n) →
          ((∀ w n, s.workList.head? = some t → s.headWork = some w → w.source ≠ some n) →
            t' = answered (released (unlisted renewed)))
          ∧ (∀ w n, s.workList.head? = some t → s.headWork = some w → w.source = some n →
            t' = answered (released (unlisted (renewed.unpin t n)))))
      ∧ (st.sub = .filling .store →
          (s.imageWork = .idle → t' = answered (released { renewed with
            imageQueue := s.imageQueue.filter (fun e => e.op ≠ .storeRead t) }))
          ∧ (∀ e rest, s.imageWork ≠ .idle → s.imageQueue = e :: rest →
            (e.op = .storeRead t →
              t' = answered (released { renewed with imageQueue := rest, imageWork := .idle }))
            ∧ (e.op ≠ .storeRead t → t' = answered (released { renewed with
                imageQueue := e :: rest.filter (fun x => x.op ≠ .storeRead t) }))))
      ∧ (t'.table t).staged = none ∧ (∀ u, u ≠ t → t'.table u = s.table u)
      ∧ (t'.engine p).buffer = { tag := tag, status := .ok, flags := 0
                                 data := wordBytes st.version.number ++ [st.sub.code] }
      ∧ t' = { renewed.withDirectoryOf t' with
          engines := t'.engines, workList := t'.workList, headWork := t'.headWork
          imageQueue := t'.imageQueue, imageWork := t'.imageWork }

/-- FILL_WORD at the head of the work list, where the staging engine is granted and no WRITE is between two
words, writes one word: the fill's value, or the source's word below its length and 0 above; the head goes
on to the next offset, and after the last word the version is OPEN, the entry is gone, and FILL_DONE is
entered for the issuing session. The first FILL_WORD of a COPY fill pins the CURRENT version and copies its
word 0. Where another requestor waits, a COPY fill keeps the word it has read until its write is granted.
A COPY fill that meets a parity error reports it, unpins its source, releases the STAGED version, leaves
the list and enters FILL_DONE with PARITY. Not granted, FILL_WORD changes nothing. Conventions of the model
stand in it: log 16, 27, 35. -/
def Obligations.FillWordWritesOneWord : Prop :=
  (∀ (t : TableId) (rest : List TableId) (st : Staged) (w : HeadWork) (a : Nat) (s : State),
    s.workList = t :: rest → (s.table t).staged = some st →
    s.headWork = some w
      ∨ s.headWork = none ∧ w = { offset := 0, check := checkStart, source := none } →
    wordAddress st.version.pages w.offset = some a →
    s.writeWaits = false → s.grants .staging = true →
    let stored (x : Word) : State :=
      { s with mem := Memory.write s.mem a (storedOf x), arbiter := .imageStore }
    let more (x : Word) : Prop := w.offset + 1 < st.version.length → exec .fillWord s = .next
      { stored x with headWork := some { w with offset := w.offset + 1, copied := none } }
    let last (x : Word) (unpinned : State → State) : Prop :=
      w.offset + 1 = st.version.length → exec .fillWord s = .next
        (({ (unpinned (stored x)).setTable t { (unpinned (stored x)).table t with
              staged := some { st with sub := .opened } } with
            workList := s.workList.filter (fun u => u ≠ t), headWork := none } :
            State).tellWriter t st.session
          { kind := .fillDone, table := some t, version := st.version.number, result := .ok
            extra := 0 })
    (st.sub = .filling .zero → w.source = none → more 0 ∧ last 0 id)
    ∧ (∀ x, st.sub = .filling (.value x) → w.source = none → more x ∧ last x id)
    ∧ (∀ n v isCurrent source, st.sub = .filling (.copy n) → w.source = some source →
      s.lookup t source = some (v, isCurrent) →
      (∀ x, w.copied = some x → more x ∧ last x (fun s1 => s1.unpin t source))
      ∧ (w.copied = none → w.offset < v.length →
        oddOnes (s.versionWord v.pages w.offset) = true →
        ((∀ q, s.waits q = true → q = .staging) →
          more (valueOf (s.versionWord v.pages w.offset))
          ∧ last (valueOf (s.versionWord v.pages w.offset)) (fun x => x.unpin t source))
        ∧ ((∃ q, q ≠ .staging ∧ s.waits q = true) → s.headWork = some w →
          exec .fillWord s = .next { s with
            arbiter := .imageStore
            headWork := some
              { w with copied := some (valueOf (s.versionWord v.pages w.offset)) } }))
      ∧ (w.copied = none → v.length ≤ w.offset →
        more 0 ∧ last 0 (fun x => x.unpin t source))))
  ∧ (∀ (t : TableId) (rest : List TableId) (st : Staged) (n : Nat) (v : Version) (a : Nat)
      (s : State),
    s.workList = t :: rest → (s.table t).staged = some st → st.sub = .filling (.copy n) →
    s.headWork = none → (s.table t).current = some v →
    wordAddress st.version.pages 0 = some a →
    s.writeWaits = false → s.grants .staging = true →
    let pinned (w : HeadWork) : State :=
      { s.setTable t { s.table t with current := some { v with pins := v.pins + 1 } } with
        headWork := some w }
    let word := s.versionWord v.pages 0
    let atStart : HeadWork := { offset := 0, check := checkStart, source := some v.number }
    exec .fillWord s = exec .fillWord (pinned atStart)
    ∧ (1 < st.version.length → 0 < v.length → oddOnes word = true →
      ((∀ q, s.waits q = true → q = .staging) → exec .fillWord s = .next
        { pinned { atStart with offset := 1 } with
          mem := Memory.write s.mem a (storedOf (valueOf word)), arbiter := .imageStore })
      ∧ ((∃ q, q ≠ .staging ∧ s.waits q = true) → exec .fillWord s = .next
        { pinned { atStart with copied := some (valueOf word) } with
          arbiter := .imageStore })))
  ∧ (∀ (t : TableId) (rest : List TableId) (st : Staged) (n source : Nat) (v : Version)
      (w : HeadWork) (s : State),
    s.workList = t :: rest → (s.table t).staged = some st → st.sub = .filling (.copy n) →
    s.headWork = some w → w.source = some source → w.copied = none →
    (s.table t).current = some v → v.number = source → w.offset < v.length →
    s.writeWaits = false → s.grants .staging = true →
    oddOnes (s.versionWord v.pages w.offset) = false →
    ∃ t', exec .fillWord s = .next t'
      ∧ (t'.table t).staged = none
      ∧ (t'.table t).current = some
          { v with
            pins := v.pins - 1
            faulty := insertSorted (w.offset / 256) v.faulty
            damage := if v.damage = Damage.clear then .parity else v.damage }
      ∧ t'.workList = s.workList.filter (fun u => u ≠ t) ∧ t'.headWork = none
      ∧ (∀ u, u ≠ t → t'.table u = s.table u)
      ∧ t' = { s.withDirectoryOf t' with
          workList := t'.workList, headWork := none, arbiter := .imageStore }
      ∧ t' = ({ (((({ s with arbiter := .imageStore } : State).parityReport t source
            (w.offset / 256)).unpin t source).releaseStaged t) with
          workList := s.workList.filter (fun u => u ≠ t), headWork := none } :
          State).tellWriter t st.session
        { kind := .fillDone, table := some t, version := st.version.number, result := .parity
          extra := 0 })
  ∧ (∀ (s : State), s.writeWaits = true ∨ s.grants .staging = false →
    exec .fillWord s = .next s)

/-- SUMMING_WORD, where the staging engine is granted and no WRITE is between two words, feeds one good
word, the first after the length, and goes on; after the last word the commit swaps where no RETIRING
version is, with COMMIT_DONE OK, and otherwise returns to OPEN with COMMIT_DONE RETIRE_BUSY or is HELD by
its limit; a commit whose session has ended is released; a word with a parity error fails the commit with
COMMIT_DONE PARITY. Not granted, SUMMING_WORD changes nothing. Conventions of the model stand in it: log
16, 35. -/
def Obligations.SummingWordEndsInItsOutcome : Prop :=
  (∀ (t : TableId) (rest : List TableId) (st : Staged) (limit : Nat) (w : HeadWork) (s : State),
    s.workList = t :: rest → (s.table t).staged = some st → st.sub = .summing limit →
    s.headWork = some w
      ∨ s.headWork = none ∧ w =
        { offset := 0, check := checkFeed 0xFFFF (BitVec.ofNat 16 st.version.length)
          source := none } →
    s.writeWaits = false → s.grants .staging = true →
    let word := s.versionWord st.version.pages w.offset
    let check := checkFeed w.check (valueOf word)
    let holds := ∃ p, (s.table t).entry.writer = some p ∧ (s.session p).isOpen = true
      ∧ (s.session p).number = st.session
    let granted : State := { s with arbiter := .imageStore }
    let unlisted (x : State) : State :=
      { x with workList := s.workList.filter (fun u => u ≠ t), headWork := none }
    let done (result : Status) : Event :=
      { kind := .commitDone, table := some t, version := st.version.number, result := result
        extra := 0 }
    (oddOnes word = true → w.offset + 1 < st.version.length → exec .summingWord s = .next
      { granted with headWork := some { w with offset := w.offset + 1, check := check } })
    ∧ (oddOnes word = true → w.offset + 1 = st.version.length →
      ∃ t', exec .summingWord s = .next t'
        ∧ t' = { s.withDirectoryOf t' with
            workList := s.workList.filter (fun u => u ≠ t), headWork := none
            arbiter := .imageStore }
        ∧ (∀ u, u ≠ t → t'.table u = s.table u)
        ∧ (¬holds → (t'.table t).staged = none ∧ (t'.table t).current = (s.table t).current
            ∧ (t'.table t).retiring = (s.table t).retiring ∧ t'.events = s.events)
        ∧ (holds → (s.table t).retiring = none → (t'.table t).staged = none
            ∧ (t'.table t).current = some { st.version with check := some check }
            ∧ (∀ v, (s.table t).current = some v → 0 < v.pins →
                (t'.table t).retiring = some v)
            ∧ ((∀ v, (s.table t).current = some v → v.pins = 0) →
                (t'.table t).retiring = none)
            ∧ t' = (((unlisted granted).setTable t { s.table t with
                staged := some { st with
                  version := { st.version with check := some check } } }).swap t).tellWriter t
                    st.session (done .ok))
        ∧ (∀ x, holds → (s.table t).retiring = some x →
            (t'.table t).current = (s.table t).current ∧ (t'.table t).retiring = some x
            ∧ (limit = 0 → (t'.table t).staged = some { st with sub := .opened }
              ∧ t' = ((unlisted granted).setTable t { s.table t with
                  staged := some { st with sub := .opened } }).tellWriter t st.session
                    (done .retireBusy))
            ∧ (0 < limit → t'.events = s.events
              ∧ (t'.table t).staged = some
                { st with
                  version := { st.version with check := some check }, sub := .held limit })))
    ∧ (oddOnes word = false → ∃ t', exec .summingWord s = .next t'
        ∧ t' = { s.withDirectoryOf t' with
            workList := s.workList.filter (fun u => u ≠ t), headWork := none
            arbiter := .imageStore }
        ∧ (∀ u, u ≠ t → t'.table u = s.table u)
        ∧ t' = (unlisted ((granted.parityReport t st.version.number
            (w.offset / 256)).releaseStaged t)).tellWriter t st.session (done .parity)
        ∧ ((∀ v, (s.table t).current = some v → v.number ≠ st.version.number) →
            (∀ v, (s.table t).retiring = some v → v.number ≠ st.version.number) →
            (t'.table t).staged = none ∧ (t'.table t).current = (s.table t).current
            ∧ (t'.table t).retiring = (s.table t).retiring
            ∧ (∀ page, st.version.pages[w.offset / 256]? = some page →
                page ∈ t'.quarantine))))
  ∧ (∀ (s : State), s.writeWaits = true ∨ s.grants .staging = false →
    exec .summingWord s = .next s)

/-- RETIREMENT_NOTICE: a HELD version whose session holds is swapped, one whose session has ended is
released; otherwise, and where a RETIRING version is present, the notice has no effect. HOLD_DEADLINE,
taken before the notice of a retirement or with none on its way, returns a HELD version to OPEN without
its check value and enters COMMIT_DONE with RETIRE_BUSY. Conventions of the model stand in it: log 5, 13,
14, 38. -/
def Obligations.HoldEndsByNoticeOrDeadline : Prop :=
  ∀ (t : TableId) (s : State),
    let taken : State := { s with notices := s.notices.erase t }
    (∀ st limit, t ∈ s.notices → (s.table t).staged = some st → st.sub = .held limit →
      (s.table t).retiring = none →
      (∀ p, (s.table t).entry.writer = some p → (s.session p).isOpen = true →
        (s.session p).number = st.session →
        exec (.retirementNotice t) s = .next ((taken.swap t).tellWriter t st.session
          { kind := .commitDone, table := some t, version := st.version.number, result := .ok
            extra := 0 }))
      ∧ ((∀ p, (s.table t).entry.writer = some p → (s.session p).isOpen = true →
          (s.session p).number ≠ st.session) →
        exec (.retirementNotice t) s = .next (taken.releaseStaged t)))
    ∧ (t ∈ s.notices → (∀ st limit, (s.table t).staged = some st → st.sub ≠ .held limit) →
      exec (.retirementNotice t) s = .next taken)
    ∧ (t ∈ s.notices → (s.table t).retiring.isSome = true →
      exec (.retirementNotice t) s = .next taken)
    ∧ (∀ st limit, (s.table t).staged = some st → st.sub = .held limit →
      exec (.holdDeadline t) s = .next ((s.setTable t { s.table t with
          staged := some
            { st with version := { st.version with check := none }, sub := .opened } }).tellWriter
          t st.session
        { kind := .commitDone, table := some t, version := st.version.number
          result := .retireBusy, extra := 0 }))

/-! ## Image store -/

/-- PERSIST, with its refusals in order, from the range of the table id, its definition and the writer
right on: it merges with a waiting PERSIST of the table, or joins the back of the queue. -/
def Obligations.PersistQueuesOrMerges : Prop :=
  (∀ (p : Port) (table tag : Byte) (s : State), s.asks p (.persist table) tag → s.servesTables p →
    let refused (st : Status) : Prop := exec (.persist p table) s = .next
      ((s.leaseRenewed p).respond p tag (refuse st))
    (31 < table.toNat → refused .range)
    ∧ (∀ t : TableId, table.toNat = t.val →
      ((s.table t).entry.defined = false → refused .undefined)
      ∧ ((s.table t).entry.defined = true → (s.table t).entry.writer ≠ some p → refused .denied)))
  ∧ ∀ (p : Port) (table tag : Byte) (t : TableId) (s : State), s.asks p (.persist table) tag →
    s.servesTables p → table.toNat = t.val → s.writes p t →
    let refused (st : Status) : Prop := exec (.persist p table) s = .next
      ((s.leaseRenewed p).respond p tag (refuse st))
    if (s.table t).entry.persistent = false then refused .notPersistent
    else if (s.table t).current.any (fun v => v.damage ≠ Damage.clear) then refused .damaged
    else if s.supply = .low then refused .supplyLow
    else if s.imageWork ≠ .idle ∧ (s.imageQueue.head?.any (fun e => e.op = .persist t)) then
      refused .imageBusy
    else if s.imageQueue.any (fun e => e.op = .persist t) then
      exec (.persist p table) s = .next ((s.leaseRenewed p).respond p tag
        (replyAccepted [byteOf s.imageQueue.length] { merged := true }))
    else if 4 ≤ s.imageQueue.length then refused .queueFull
    else exec (.persist p table) s = .next (({ s.leaseRenewed p with
        imageQueue := s.imageQueue
          ++ [{ op := .persist t, port := p, session := (s.session p).number }] } :
        State).respond p tag (replyAccepted [byteOf (s.imageQueue.length + 1)]))

/-- PERSIST_START with the supply OK: EMPTY and DAMAGED end at once without a pin; otherwise the
CURRENT version is pinned and the target is the slot that does not hold the newest valid image, with
the sequence number after the newest. While the supply is LOW the head waits. -/
def Obligations.PersistStartChoosesTheTarget : Prop :=
  (∀ (s : State), s.supply = .low → exec .persistStart s = .next s)
  ∧ ∀ (e : QueueEntry) (rest : List QueueEntry) (t : TableId) (s : State),
    s.imageQueue = e :: rest → e.op = .persist t → s.imageWork = .idle → s.supply = .ok →
    let ended (version : Nat) (result : Status) : State :=
      ({ s with imageQueue := rest } : State).enterEvent e.port (some e.session)
        { kind := .persistDone, table := some t, version := version, result := result, extra := 0 }
    let sequence (x : TableSlot) (n : Nat) : Prop :=
      x.marker = true ∧ ∃ h, x.header = some h ∧ h.sequence = n
    let started (v : Version) (target : SlotName) (n : Nat) : Prop :=
      exec .persistStart s = .next { s.setTable t { s.table t with
          current := some { v with pins := v.pins + 1 } } with
        imageWork := .persistErasing
          { table := t, number := v.number, length := v.length, pages := v.pages
            check := v.check, target := target, sequence := n } }
    ((s.table t).current = none → exec .persistStart s = .next (ended 0 .empty))
    ∧ (∀ v, (s.table t).current = some v →
      (v.damage ≠ .clear → exec .persistStart s = .next (ended v.number .damaged))
      ∧ (v.damage = .clear →
        ((s.pair t).a.marker = false → (s.pair t).b.marker = false → started v .a 1)
        ∧ (∀ m, sequence (s.pair t).a m → (s.pair t).b.marker = false → m < 4294967295 →
          started v .b (m + 1))
        ∧ (∀ n, (s.pair t).a.marker = false → sequence (s.pair t).b n → n < 4294967295 →
          started v .a (n + 1))
        ∧ (∀ m n, sequence (s.pair t).a m → sequence (s.pair t).b n →
          (n ≤ m → m < 4294967295 → started v .b (m + 1))
          ∧ (m < n → n < 4294967295 → started v .a (n + 1)))
        ∧ (∀ m, sequence (s.pair t).a m → (s.pair t).b.marker = false → m = 4294967295 →
          exec .persistStart s = .next (ended v.number .writeFailed))))

/-- The steps of a persist: the target is erased, the words are programmed in order, and header and
marker are written; the pin goes, the entry leaves and PERSIST_DONE is entered. A failed verify leaves
the target not valid; the other slot and every other pair stay as they were. A word that is not granted is
not programmed. Conventions of the model stand in it: log 16, 22, 35. -/
def Obligations.PersistWritesTheTarget : Prop :=
  ∀ (e : QueueEntry) (rest : List QueueEntry) (job : PersistJob) (s : State),
    s.imageQueue = e :: rest →
    let slot := (s.pair job.table).slot job.target
    let withSlot (x : TableSlot) : State :=
      s.setPair job.table ((s.pair job.table).setSlot job.target x)
    let ended (s1 : State) (result : Status) (extra : Nat) : State :=
      ({ s1.unpin job.table job.number with imageQueue := rest, imageWork := .idle } :
          State).enterEvent e.port (some e.session)
        { kind := .persistDone, table := some job.table, version := job.number
          result := result, extra := extra }
    let erased : TableSlot := { data := [], header := none, marker := false }
    (s.imageWork = .persistErasing job →
      exec (.persistErase true) s = .next
        { withSlot erased with imageWork := .persistProgramming job 0 }
      ∧ exec (.persistErase false) s = .next (ended (withSlot erased) .writeFailed 0))
    ∧ (∀ offset, s.imageWork = .persistProgramming job offset →
      let word := s.versionWord job.pages offset
      let programmed : State :=
        { withSlot { slot with data := slot.data ++ [valueOf word] } with
          arbiter := .portEngine 0 }
      (s.grants .imageStore = true → oddOnes word = true →
        exec (.persistProgramWord true) s = .next
          { programmed with
            imageWork := if offset + 1 < job.length then .persistProgramming job (offset + 1)
              else .persistMarking job }
        ∧ exec (.persistProgramWord false) s = .next (ended programmed .writeFailed 0))
      ∧ (∀ verified, s.grants .imageStore = true → oddOnes word = false →
        exec (.persistProgramWord verified) s = .next
          (ended (({ s with arbiter := .portEngine 0 } : State).parityReport job.table job.number
            (offset / 256)) .parity 0))
      ∧ (∀ verified, s.grants .imageStore = false →
        exec (.persistProgramWord verified) s = .next s))
    ∧ (s.imageWork = .persistMarking job → ∀ c, job.check = some c →
      let header : TableHeader :=
        { table := job.table, sequence := job.sequence, version := job.number
          length := job.length, check := c }
      exec (.persistMarking true) s = .next
        (ended (withSlot { slot with header := some header, marker := true }) .ok
          ((job.length + 255) / 256))
      ∧ exec (.persistMarking false) s = .next
        (ended (withSlot { slot with header := some header, marker := false }) .writeFailed 0))

/-- STORE_READ_START takes the valid slots, the higher sequence number first and slot A first where the
two are equal, whatever the supply; SLOT_VERIFY_READ ends the read with NO_IMAGE or BAD_IMAGE, tries the
other slot, or begins the copy into the lowest free pages, with TOO_LONG and NO_SPACE where it cannot.
Conventions of the model stand in it: log 26. -/
def Obligations.StoreReadSelectsTheImage : Prop :=
  (∀ (e : QueueEntry) (rest : List QueueEntry) (t : TableId) (s : State),
    s.imageQueue = e :: rest → e.op = .storeRead t → s.imageWork = .idle →
    let sequence (x : TableSlot) (n : Nat) : Prop :=
      x.marker = true ∧ ∃ h, x.header = some h ∧ h.sequence = n
    let started (order : List SlotName) : Prop :=
      exec .storeReadStart s = .next { s with imageWork := .selecting t order }
    started (s.pair t).candidates
    ∧ ((s.pair t).a.marker = false → (s.pair t).b.marker = false → started [])
    ∧ (∀ m, sequence (s.pair t).a m → (s.pair t).b.marker = false → started [.a])
    ∧ (∀ n, (s.pair t).a.marker = false → sequence (s.pair t).b n → started [.b])
    ∧ (∀ m n, sequence (s.pair t).a m → sequence (s.pair t).b n →
      (n ≤ m → started [.a, .b]) ∧ (m < n → started [.b, .a])))
  ∧ (∀ (e : QueueEntry) (rest : List QueueEntry) (t : TableId) (st : Staged) (s : State),
    s.imageQueue = e :: rest → (s.table t).staged = some st → st.sub = .filling .store →
    st.version.pages = [] →
    let failed (result : Status) : Prop := exec .slotVerifyRead s = .next
      ((({ s with imageQueue := rest, imageWork := .idle } : State).releaseStaged t).tellWriter t
        st.session
        { kind := .fillDone, table := some t, version := st.version.number, result := result
          extra := 0 })
    (s.imageWork = .selecting t [] → failed .noImage)
    ∧ (∀ x others, s.imageWork = .selecting t (x :: others) →
      (((s.pair t).slot x).goodHeader t = none → others = [] → failed .badImage)
      ∧ (((s.pair t).slot x).goodHeader t = none → others ≠ [] →
        exec .slotVerifyRead s = .next { s with imageWork := .selecting t others })
      ∧ (∀ h, ((s.pair t).slot x).goodHeader t = some h →
        let n := (h.length + 255) / 256
        ((s.table t).entry.maxPages * 256 < h.length → failed .tooLong)
        ∧ (h.length ≤ (s.table t).entry.maxPages * 256 → s.freePool.length < n →
          failed .noSpace)
        ∧ (h.length ≤ (s.table t).entry.maxPages * 256 → n ≤ s.freePool.length →
          exec .slotVerifyRead s = .next { s.setTable t { s.table t with
              staged := some { st with
                version := { st.version with
                  length := h.length, pages := s.freePool.take n } } } with
            freePool := s.freePool.drop n
            imageWork := .reading
              { table := t, slot := x, header := h, offset := 0
                register := checkFeed 0xFFFF (BitVec.ofNat 16 h.length) } }))))

/-- STORE_READ_WORD writes one word of the chosen slot at the same offset of the STAGED version and
feeds it; after the last word the version is OPEN with FILL_DONE OK where the check value matches the
header, and is released with BAD_IMAGE where it does not. A word that is not granted is not
written. Conventions of the model stand in it: log 16, 22, 23, 35. -/
def Obligations.StoreReadCopiesTheImage : Prop :=
  ∀ (e : QueueEntry) (rest : List QueueEntry) (job : StoreReadJob) (st : Staged) (w : Word) (a : Nat)
    (disturbed : Option Word) (s : State),
    s.imageQueue = e :: rest → s.imageWork = .reading job →
    (s.table job.table).staged = some st →
    wordAddress st.version.pages job.offset = some a →
    (disturbed = some w ∨ disturbed = none
      ∧ ((s.pair job.table).slot job.slot).data[job.offset]? = some w) →
    let stored : State :=
      { s with mem := Memory.write s.mem a (storedOf w), arbiter := .portEngine 0 }
    let done (result : Status) : Event :=
      { kind := .fillDone, table := some job.table, version := st.version.number
        result := result, extra := 0 }
    (s.grants .imageStore = false → exec (.storeReadWord disturbed) s = .next s)
    ∧ (s.grants .imageStore = true →
    (job.offset + 1 < job.header.length → exec (.storeReadWord disturbed) s = .next
      { stored with
        imageWork := .reading
          { job with offset := job.offset + 1, register := checkFeed job.register w } })
    ∧ (job.offset + 1 = job.header.length → checkFeed job.register w = job.header.check →
      exec (.storeReadWord disturbed) s = .next
        (({ stored.setTable job.table { s.table job.table with
              staged := some { st with sub := .opened } } with
            imageQueue := rest, imageWork := .idle } : State).tellWriter job.table st.session
          (done .ok)))
    ∧ (job.offset + 1 = job.header.length → checkFeed job.register w ≠ job.header.check →
      exec (.storeReadWord disturbed) s = .next
        ((({ stored with imageQueue := rest, imageWork := .idle } : State).releaseStaged
          job.table).tellWriter job.table st.session (done .badImage))))

/-- A charter write: it waits while the supply is LOW, and starts under an OK supply on the slot that does
not hold the newest good charter, erases it, and writes record, header and marker; its result goes to the
part controller, and a failed verify leaves the target without a marker. CHARTER_WRITE_RESULT in the
maintenance period that queued the write sets the charter-committed flag on OK and enters CHARTER_DONE;
outside MAINTENANCE it does neither. Conventions of the model stand in it: log 13, 22, 28. -/
def Obligations.CharterWriteFillsTheTarget : Prop :=
  (∀ (s : State), s.supply = .low → exec .charterWriteStart s = .next s)
  ∧ (∀ (e : QueueEntry) (rest : List QueueEntry) (c : Charter) (s : State),
    s.imageQueue = e :: rest →
    let ended (s1 : State) (ok : Bool) (n : Option Nat) : State :=
      { s1 with
        imageQueue := rest, imageWork := .idle
        charterResults := s.charterResults
          ++ [{ ok := ok, sequence := n, port := e.port, session := e.session }] }
    let started (target : SlotName) (n : Nat) : Prop := exec .charterWriteStart s = .next
      { s with imageWork := .charterErasing { record := c, target := target, sequence := n } }
    (e.op = .charterWrite c → s.imageWork = .idle → s.supply = .ok →
      (s.charterSlots.newestGood = none → started .a 1)
      ∧ (∀ x d n, s.charterSlots.newestGood = some (x, d, n) →
        (n < 4294967295 → started (match x with | .a => .b | .b => .a) (n + 1))
        ∧ (n = 4294967295 → exec .charterWriteStart s = .next (ended s false none))))
    ∧ (∀ job : CharterJob,
      let withSlot (x : CharterSlot) : State :=
        { s with charterSlots := s.charterSlots.setSlot job.target x }
      let erased : CharterSlot := { record := none, header := none, marker := false }
      let full (marker : Bool) : CharterSlot :=
        { record := some { job.record with sequence := job.sequence }
          header := some { sequence := job.sequence, check := job.record.checkValue }
          marker := marker }
      (s.imageWork = .charterErasing job →
        exec (.charterWriteErase true) s = .next
          { withSlot erased with imageWork := .charterProgramming job }
        ∧ exec (.charterWriteErase false) s = .next
          (ended (withSlot erased) false (some job.sequence)))
      ∧ (s.imageWork = .charterProgramming job → ∀ verified,
        exec (.charterWriteCompletion verified) s = .next
          (ended (withSlot (full verified)) verified (some job.sequence)))))
  ∧ (∀ (r : CharterResult) (rest : List CharterResult) (s : State), s.charterResults = r :: rest →
    (s.part.state = .maintenance → s.part.maintPort = some r.port →
      (s.session r.port).number = r.session →
      exec .charterWriteResult s = .next (({ s with
          charterResults := rest
          part := { s.part with committed := s.part.committed || r.ok } } : State).enterEvent
        r.port (some r.session)
        { kind := .charterDone, table := none, version := 0
          result := if r.ok then .ok else .writeFailed, extra := 0 }))
    ∧ (s.part.state ≠ .maintenance →
      exec .charterWriteResult s = .next { s with charterResults := rest }))

/-! ## Resets and LOADING -/

/-- POWER_ON, and PIN_RESET and SUPPLY_RESET outside RESET: the part is in RESET, no version, cursor,
saved context, event or work is left, every page is free, every buffer holds NOT_READY, and every
session is CLOSED with its cause; power-on alone resets session numbers and departure records. A write
in flight at the image store leaves its target slot without a marker, and every other slot is unchanged. In
RESET a second cause changes nothing. That SUPPLY_RESET leaves the supply state LOW is the model's own reading
(log 10). -/
def Obligations.PartResetsClearTheVolatileState : Prop :=
  (∀ s : State, ∃ t, exec .powerOn s = .next t ∧ s.VolatileCleared t
    ∧ t.part.state = .reset
    ∧ ∀ p, (t.session p).number = 0 ∧ (t.session p).leasePeriod = 10
        ∧ (t.session p).departure = .powerOn)
  ∧ (∀ s : State, s.part.state ≠ .reset →
    ∃ t, exec .pinReset s = .next t ∧ s.VolatileCleared t ∧ t.part.state = .reset
      ∧ s.SessionsRecorded .pinReset t ∧ t.supply = s.supply)
  ∧ (∀ s : State, s.part.state ≠ .reset →
    ∃ t, exec .supplyReset s = .next t ∧ s.VolatileCleared t ∧ t.part.state = .reset
      ∧ s.SessionsRecorded .supplyReset t ∧ t.supply = .low)
  ∧ (∀ s : State, s.part.state = .reset →
    exec .pinReset s = .next s ∧ exec .supplyReset s = .next s)

/-- RESET_RELEASE above 2.65 V enters LOADING, with the supply state LOW below 2.95 V; CHARTER_SELECTION
puts the newest good charter in force, or the default charter with the charter-absent flag, and rebuilds
every table record from it. Conventions of the model stand in it: log 20, 24. -/
def Obligations.LoadingChoosesTheCharter : Prop :=
  (∀ (millivolts : Nat) (s : State), s.part.state = .reset → 2650 < millivolts →
    ∃ t, exec (.resetRelease millivolts) s = .next t
      ∧ t.part = { s.part with state := .loading, loading := .charter }
      ∧ t.supply = (if millivolts < 2950 then .low else .ok)
      ∧ (∀ p, t.engine p = { s.engine p with
          rx := if (s.engine p).csLow then .discarding else .idle })
      ∧ t = { s with engines := t.engines, supply := t.supply, part := t.part })
  ∧ (∀ (s : State) (c : Charter) (absent : Bool), s.part.state = .loading →
    s.part.loading = .charter →
    (s.charterSlots.newestGood = none ∧ c = Charter.default ∧ absent = true
      ∨ ∃ x d n, s.charterSlots.newestGood = some (x, d, n) ∧ c = { d with sequence := n }
        ∧ absent = false) →
    ∃ t, exec .charterSelection s = .next t
      ∧ t.part = { s.part with charter := c, charterAbsent := absent, loading := .table 0 }
      ∧ (∀ u, t.table u =
          { entry := c.tables[u], current := none, staged := none, retiring := none
            nextVersion := 1, loadResult := .notPersistent })
      ∧ t = { s with tables := t.tables, part := t.part })

/-- LOAD_TABLE of one table id: NOT_PERSISTENT, NO_IMAGE, BAD_IMAGE, TOO_LONG and NO_SPACE leave it
without a version and the pool as it was; an image whose copy matches its header becomes the CURRENT
version in the lowest free pages, which hold its words in order; a copy that does not match ends in
BAD_IMAGE, its pages back in the pool. No other word of table memory changes. The next id follows, and
after id 31 the part is in SERVICE or UNCHARTERED. Conventions of the model stand in it: log 16, 22. -/
def Obligations.LoadTableEndsInItsResult : Prop :=
  ∀ (t : TableId) (s : State), s.part.state = .loading → s.part.loading = .table t →
    let r := s.table t
    let next (s1 : State) : State :=
      if t.val = 31 then
        if s.part.charterAbsent then
          { s1 with
            scrub := Scrubber.fresh
            part := { s.part with state := .unchartered, loading := .idle } }
        else
          { s1 with
            scrub := { Scrubber.fresh with
              timer := if 0 < s.part.charter.scrubPeriod then
                some s.part.charter.scrubPeriod else none }
            part := { s.part with state := .service, loading := .idle } }
      else { s1 with part := { s.part with loading := .table (t + 1) } }
    let failed (disturbed : List (Nat × Word)) (result : LoadResult) : Prop :=
      exec (.loadTable disturbed) s = .next (next (s.setTable t { r with loadResult := result }))
    (∀ d, r.entry.defined = false ∨ r.entry.persistent = false → failed d .notPersistent)
    ∧ (r.entry.defined = true → r.entry.persistent = true →
      (∀ d, (s.pair t).candidates = [] → failed d .noImage)
      ∧ (∀ d, (s.pair t).candidates ≠ [] →
        (∀ x ∈ (s.pair t).candidates, ((s.pair t).slot x).goodHeader t = none) →
        failed d .badImage)
      ∧ (∀ before x after h, (s.pair t).candidates = before ++ x :: after →
        (∀ y ∈ before, ((s.pair t).slot y).goodHeader t = none) →
        ((s.pair t).slot x).goodHeader t = some h →
        let n := (h.length + 255) / 256
        (∀ d, r.entry.maxPages * 256 < h.length → failed d .tooLong)
        ∧ (∀ d, h.length ≤ r.entry.maxPages * 256 → s.freePool.length < n → failed d .noSpace)
        ∧ (h.length ≤ r.entry.maxPages * 256 → n ≤ s.freePool.length →
          let pages := s.freePool.take n
          let copied (d : List (Nat × Word)) : List Word := (List.range h.length).map (fun i =>
            ((d.find? (fun x => x.1 = i)).map Prod.snd).getD (((s.pair t).slot x).word i))
          let others (s1 : State) : Prop := ∀ a,
            (∀ i, i < h.length → wordAddress pages i ≠ some a) →
            Memory.read s1.mem a = Memory.read s.mem a
          (∀ d, (d = [] ∨ checkValue h.length (copied d) = h.check) →
            ∃ s1, exec (.loadTable d) s = .next (next s1)
              ∧ s1.freePool = s.freePool.drop n ∧ s1.quarantine = s.quarantine
              ∧ s1.table t =
                { r with
                  current := some
                    { number := h.version, length := h.length, pages := pages
                      check := some h.check, pins := 0, damage := .clear, faulty := [] }
                  nextVersion := if 65535 ≤ h.version then 1 else h.version + 1
                  loadResult := .loaded }
              ∧ (∀ u, u ≠ t → s1.table u = s.table u)
              ∧ (s.freePool.Nodup → ∀ i w a, (copied d)[i]? = some w →
                wordAddress pages i = some a → Memory.read s1.mem a = some (storedOf w))
              ∧ others s1
              ∧ s1 = { s with
                  tables := s1.tables, freePool := s1.freePool, mem := s1.mem
                  arbiter := .portEngine 0 })
          ∧ (∀ d, d ≠ [] → checkValue h.length (copied d) ≠ h.check →
            ∃ s1, exec (.loadTable d) s = .next (next s1)
              ∧ (s.freePool.Pairwise (· < ·) → s1.freePool = s.freePool)
              ∧ s1.quarantine = s.quarantine ∧ others s1
              ∧ s1 = { s.setTable t { r with loadResult := .badImage } with
                  freePool := s1.freePool, mem := s1.mem, arbiter := .portEngine 0 }))))

/-! ## Supply and maintenance -/

/-- A change of the supply state enters one SUPPLY event, with the new state, for every port with an
open session, and changes nothing else. -/
def Obligations.SupplyChangesAreTold : Prop :=
  ∀ (s : State),
    let told (x : SupplyState) (extra : Nat) : State :=
      ({ s with supply := x } : State).enterEvents [0, 1, 2, 3]
        { kind := .supply, table := none, version := 0, result := .ok, extra := extra }
    (s.supply = .ok → exec .supplyStateLow s = .next (told .low 1))
    ∧ (s.supply = .low → exec .supplyStateOk s = .next (told .ok 0))
    ∧ (∀ x extra p, (s.session p).isOpen = false → (told x extra).queue p = s.queue p)

/-- MAINT_ENTER with its refusals in order: it records the port, enters MAINTENANCE with a copy of the
charter in force and stops the scrubber; cursors and stacks stay as they are. Conventions of the model
stand in it: log 15. -/
def Obligations.MaintEnterTakesTheCharter : Prop :=
  ∀ (p : Port) (tag : Byte) (s : State), s.asks p .maintEnter tag → s.admits p →
    let refused (st : Status) : Prop := exec (.maintEnter p) s = .next
      ((s.leaseRenewed p).respond p tag (refuse st))
    if s.part.state = .maintenance then refused .maintenance
    else if (s.part.charter.ports[p]).maintenance = false then refused .denied
    else if ∃ q, q ≠ p ∧ (s.session q).isOpen = true then refused .sessionsOpen
    else if s.imageQueue ≠ [] then refused .imageBusy
    else if ∃ t, (s.table t).staged.isSome = true then refused .stageExists
    else s.reports = [] → exec (.maintEnter p) s = .next (({ s.leaseRenewed p with
        scrub := Scrubber.fresh
        part := { s.part with
          state := .maintenance, maintPort := some p, working := some s.part.charter
          committed := false } } : State).respond p tag (replyOk []))

/-- CHARTER_READ answers an entry of the working copy, CHARTER_WRITE replaces one whole or refuses
RANGE, and CHARTER_COMMIT queues a charter write of the working copy, or is refused IMAGE_BUSY,
SUPPLY_LOW or RANGE; each is refused DENIED outside MAINTENANCE. -/
def Obligations.CharterRequestsUseTheWorkingCopy : Prop :=
  ∀ (p : Port) (tag : Byte) (c : Charter) (s : State), s.admits p →
    let renewed := s.leaseRenewed p
    let refused (i : Instr) (st : Status) : Prop :=
      exec i s = .next (renewed.respond p tag (refuse st))
    (s.maintains p c →
      (∀ entry, s.asks p (.charterRead entry) tag →
        (∀ name, entryOperand entry = some name → exec (.charterRead p entry) s = .next
          (renewed.respond p tag (replyOk ([entry, if s.part.committed then 1 else 0]
            ++ match name with
              | .table t => (c.tables[t]).bytes
              | .port q => (c.ports[q]).bytes
              | .part => partEntryBytes c.scrubPeriod s.part.charter.sequence))))
        ∧ (36 < entry.toNat → refused (.charterRead p entry) .range))
      ∧ (∀ entry f0 f1 f2 f3 f4, s.asks p (.charterWrite entry f0 f1 f2 f3 f4) tag →
        let written (d : Charter) : Prop := exec (.charterWrite p entry f0 f1 f2 f3 f4) s = .next
          (({ renewed with part := { s.part with working := some d } } : State).respond p tag
            (replyOk [entry]))
        (∀ (t : TableId) e, entry.toNat = t.val → tableEntryOperand f0 f1 f2 f3 f4 = some e →
          written { c with tables := c.tables.set t e })
        ∧ (∀ (q : Port) e, entry.toNat = 32 + q.val → portEntryOperand f0 f1 f2 f3 = some e →
          written { c with ports := c.ports.set q e })
        ∧ (entry.toNat = 36 → written { c with scrubPeriod := f0.toNat })
        ∧ (36 < entry.toNat
            ∨ entry.toNat < 32 ∧ tableEntryOperand f0 f1 f2 f3 f4 = none
            ∨ 32 ≤ entry.toNat ∧ entry.toNat < 36 ∧ portEntryOperand f0 f1 f2 f3 = none →
          refused (.charterWrite p entry f0 f1 f2 f3 f4) .range))
      ∧ (s.asks p .charterCommit tag →
        if s.imageQueue.any (fun e => e.isCharterWrite) then
          refused (.charterCommit p) .imageBusy
        else if s.supply = .low then refused (.charterCommit p) .supplyLow
        else if ∀ q : Port, (c.ports[q]).enabled = false ∨ (c.ports[q]).maintenance = false then
          refused (.charterCommit p) .range
        else exec (.charterCommit p) s = .next (({ renewed with
            imageQueue := s.imageQueue
              ++ [{ op := .charterWrite c, port := p, session := (s.session p).number }] } :
            State).respond p tag (replyAccepted []))))
    ∧ (∀ i r, i.asRequest = some (p, r) → s.asks p r tag → s.part.state ≠ .maintenance →
      r.code ∈ [0x41, 0x42, 0x43, 0x44] → refused i .denied)

/-- The end of maintenance, by MAINT_EXIT or by the end of the maintenance session: with a committed
charter the part is in LOADING with every session CLOSED, every buffer NOT_READY and a write in flight
abandoned; without one it returns to SERVICE under the charter in force, or to UNCHARTERED at a session
end where no charter is present. MAINT_EXIT is refused IMAGE_BUSY while a charter write is not done, and
NO_CHARTER. Conventions of the model stand in it: log 13, 30. -/
def Obligations.MaintenanceEndsByItsFlags : Prop :=
  let restarted (s t : State) : Prop :=
    s.VolatileCleared t ∧ s.SessionsRecorded .charterRestart t ∧ t.supply = s.supply
      ∧ t.part = { s.part with
          state := .loading, maintPort := none, working := none, committed := false
          loading := .charter }
  let left (s1 : State) (s : State) (state : PartState) : State := { s1 with
    part := { s.part with state := state, maintPort := none, working := none, loading := .idle }
    scrub := { Scrubber.fresh with
      timer := if state = .service ∧ 0 < s.part.charter.scrubPeriod then
        some s.part.charter.scrubPeriod else none } }
  (∀ (p : Port) (tag : Byte) (c : Charter) (s : State), s.asks p .maintExit tag → s.admits p →
    s.maintains p c →
    let waiting := s.imageQueue.any (fun e => e.isCharterWrite) = true ∨ s.charterResults ≠ []
    (waiting → exec (.maintExit p) s = .next
      ((s.leaseRenewed p).respond p tag (refuse .imageBusy)))
    ∧ (¬waiting → s.part.committed = true →
      ∃ t, exec (.maintExit p) s = .next t ∧ restarted s t)
    ∧ (¬waiting → s.part.committed = false → s.part.charterAbsent = true →
      exec (.maintExit p) s = .next ((s.leaseRenewed p).respond p tag (refuse .noCharter)))
    ∧ (¬waiting → s.part.committed = false → s.part.charterAbsent = false →
      exec (.maintExit p) s = .next
        ((left (s.leaseRenewed p) s .service).respond p tag (replyOk []))))
  ∧ (∀ (p : Port) (s : State), EndBlock.partController ∈ s.endsOf p →
    (s.part.committed = true →
      ∃ t, exec (.maintenanceSessionEnd p) s = .next t ∧ restarted s t)
    ∧ (s.part.committed = false → exec (.maintenanceSessionEnd p) s = .next
        (left (s.setEnds p ((s.endsOf p).erase .partController)) s
          (if s.part.charterAbsent then .unchartered else .service))))

/-! ## Scrubber -/

/-- SCRUB_PERIOD_EXPIRY starts a pass on the first sound CURRENT version, or makes one due; with no sound
CURRENT version the pass ends at once. SCRUB_WORD, while no ring requestor waits and no report is on its
way, reads a word of the visited version only while that is CURRENT and not DAMAGED, and feeds it without
moving the arbiter's pointer; a parity error or a mismatch sends a report, and the visit, with the last
good word fed, stands until that is taken. A visit that ends is followed by that of the next sound CURRENT
version, and after the last by a pass that is due. Conventions of the model stand in it: log 5, 7, 13, 16.
-/
def Obligations.ScrubberRereadsSoundVersions : Prop :=
  let visiting (s : State) (t : TableId) (v : Version) (due : Bool) : State :=
    { s with
      scrub := { s.scrub with
        running := true, due := due, nextId := t
        visit := some
          { table := t, number := v.number, length := v.length, pages := v.pages
            check := v.check, offset := 0
            register := checkFeed 0xFFFF (BitVec.ofNat 16 v.length) } } }
  let idle (s : State) : State :=
    { s with scrub := { s.scrub with
        running := false, due := false, nextId := 0, visit := none } }
  let sound (s : State) (t : TableId) (v : Version) : Prop :=
    (s.table t).current = some v ∧ v.damage = .clear
  (∀ (period : Nat) (s : State), s.scrub.timer = some period →
    (s.scrub.running = true →
      exec .scrubPeriodExpiry s = .next { s with scrub := { s.scrub with due := true } })
    ∧ (∀ (t : TableId) (v : Version), s.scrub.running = false → sound s t v →
      (∀ u w, u < t → ¬sound s u w) →
      exec .scrubPeriodExpiry s = .next (visiting s t v s.scrub.due))
    ∧ (s.scrub.running = false → (∀ u w, ¬sound s u w) →
      exec .scrubPeriodExpiry s = .next (idle s)))
  ∧ (∀ (x : Visit) (v : Version) (s : State), s.scrub.visit = some x →
    let word := s.versionWord x.pages x.offset
    let register := checkFeed x.register (valueOf word)
    let fed : State :=
      { s with scrub := { s.scrub with
          visit := some { x with offset := x.offset + 1, register := register } } }
    let holds := sound s x.table v ∧ v.number = x.number
    (s.waiting = [] → s.reports = [] →
      (holds → oddOnes word = true → x.offset + 1 < x.length →
        exec .scrubWord s = .next fed)
      ∧ (holds → oddOnes word = true → x.length ≤ x.offset + 1 → x.check = some register →
        exec .scrubWord s = .next (s.endVisit x.table))
      ∧ (holds → oddOnes word = true → x.length ≤ x.offset + 1 → x.check ≠ some register →
        exec .scrubWord s = .next { fed with reports := [.check x.table x.number] })
      ∧ (holds → oddOnes word = false → exec .scrubWord s = .next
        { s with reports := [.parity x.table x.number (x.offset / 256)] })
      ∧ ((∀ w, sound s x.table w → w.number ≠ x.number) →
        exec .scrubWord s = .next (s.endVisit x.table)))
    ∧ (s.waiting ≠ [] ∨ s.reports ≠ [] → exec .scrubWord s = .next s))
  ∧ (∀ (t : TableId) (s : State),
    (∀ u v, t < u → sound s u v → (∀ u' w, t < u' → u' < u → ¬sound s u' w) →
      s.endVisit t = visiting s u v s.scrub.due)
    ∧ ((∀ u v, t < u → ¬sound s u v) →
      (s.scrub.due = false → s.endVisit t = idle s)
      ∧ (s.scrub.due = true →
        (∀ u v, sound s u v → (∀ u' w, u' < u → ¬sound s u' w) →
          s.endVisit t = visiting s u v false)
        ∧ ((∀ u v, ¬sound s u v) → s.endVisit t = idle s))))

/-! ## Laws that every step keeps -/

/-- Table memory keeps its canonical form. -/
def Obligations.MemoryStaysCanonical : Prop := State.KeptByStep State.memoryCanonical

/-- Event queues, save stacks and the image store queue stay within their capacity. -/
def Obligations.QueuesStayWithinCapacity : Prop := State.KeptByStep State.withinCapacity

/-- Every page stays in exactly one of the free pool, the quarantine list and one page list, and the free
pool stays in ascending order. -/
def Obligations.EveryPageStaysAccountedFor : Prop :=
  State.KeptByStep (fun s => s.pagesAccounted ∧ s.loadInOrder)
    ∧ State.KeptByStep State.poolAscending

/-- A RETIRING version stands only beside a CURRENT one, and resident numbers stay distinct. -/
def Obligations.RolesStayLawful : Prop :=
  State.KeptByStep (fun s => s.rolesLawful ∧ s.loadInOrder)

/-- Sessions and maintenance stay lawful. -/
def Obligations.SessionsStayLawful : Prop :=
  State.KeptByStep (fun s => s.sessionsLawful ∧ s.maintenanceLawful)

/-- The machine after reset obeys every law that a step keeps. -/
def Obligations.LawsHoldAtReset : Prop :=
  State.reset.memoryCanonical ∧ State.reset.withinCapacity ∧ State.reset.pagesAccounted
    ∧ State.reset.poolAscending ∧ State.reset.loadInOrder ∧ State.reset.rolesLawful
    ∧ State.reset.sessionsLawful ∧ State.reset.maintenanceLawful
end

