-- ==== Sys2Proof/Laws/State.lean ====
section
/-! SUPPORT. One lemma for each field under each indexed update of the state, and for each accessor. -/

namespace Sys2Proof.Machine

/-! ## setEngine -/

@[simp] theorem State.setEngine_pending (s : State) (p : Port) (x : PortEngine) :
    (s.setEngine p x).pending = s.pending := rfl
@[simp] theorem State.setEngine_sessions (s : State) (p : Port) (x : PortEngine) :
    (s.setEngine p x).sessions = s.sessions := rfl
@[simp] theorem State.setEngine_ends (s : State) (p : Port) (x : PortEngine) :
    (s.setEngine p x).ends = s.ends := rfl
@[simp] theorem State.setEngine_events (s : State) (p : Port) (x : PortEngine) :
    (s.setEngine p x).events = s.events := rfl
@[simp] theorem State.setEngine_cursors (s : State) (p : Port) (x : PortEngine) :
    (s.setEngine p x).cursors = s.cursors := rfl
@[simp] theorem State.setEngine_saveStacks (s : State) (p : Port) (x : PortEngine) :
    (s.setEngine p x).saveStacks = s.saveStacks := rfl
@[simp] theorem State.setEngine_mem (s : State) (p : Port) (x : PortEngine) :
    (s.setEngine p x).mem = s.mem := rfl
@[simp] theorem State.setEngine_memEpoch (s : State) (p : Port) (x : PortEngine) :
    (s.setEngine p x).memEpoch = s.memEpoch := rfl
@[simp] theorem State.setEngine_freePool (s : State) (p : Port) (x : PortEngine) :
    (s.setEngine p x).freePool = s.freePool := rfl
@[simp] theorem State.setEngine_quarantine (s : State) (p : Port) (x : PortEngine) :
    (s.setEngine p x).quarantine = s.quarantine := rfl
@[simp] theorem State.setEngine_arbiter (s : State) (p : Port) (x : PortEngine) :
    (s.setEngine p x).arbiter = s.arbiter := rfl
@[simp] theorem State.setEngine_tables (s : State) (p : Port) (x : PortEngine) :
    (s.setEngine p x).tables = s.tables := rfl
@[simp] theorem State.setEngine_notices (s : State) (p : Port) (x : PortEngine) :
    (s.setEngine p x).notices = s.notices := rfl
@[simp] theorem State.setEngine_reports (s : State) (p : Port) (x : PortEngine) :
    (s.setEngine p x).reports = s.reports := rfl
@[simp] theorem State.setEngine_workList (s : State) (p : Port) (x : PortEngine) :
    (s.setEngine p x).workList = s.workList := rfl
@[simp] theorem State.setEngine_headWork (s : State) (p : Port) (x : PortEngine) :
    (s.setEngine p x).headWork = s.headWork := rfl
@[simp] theorem State.setEngine_scrub (s : State) (p : Port) (x : PortEngine) :
    (s.setEngine p x).scrub = s.scrub := rfl
@[simp] theorem State.setEngine_imageQueue (s : State) (p : Port) (x : PortEngine) :
    (s.setEngine p x).imageQueue = s.imageQueue := rfl
@[simp] theorem State.setEngine_imageWork (s : State) (p : Port) (x : PortEngine) :
    (s.setEngine p x).imageWork = s.imageWork := rfl
@[simp] theorem State.setEngine_charterResults (s : State) (p : Port) (x : PortEngine) :
    (s.setEngine p x).charterResults = s.charterResults := rfl
@[simp] theorem State.setEngine_store (s : State) (p : Port) (x : PortEngine) :
    (s.setEngine p x).store = s.store := rfl
@[simp] theorem State.setEngine_charterSlots (s : State) (p : Port) (x : PortEngine) :
    (s.setEngine p x).charterSlots = s.charterSlots := rfl
@[simp] theorem State.setEngine_supply (s : State) (p : Port) (x : PortEngine) :
    (s.setEngine p x).supply = s.supply := rfl
@[simp] theorem State.setEngine_part (s : State) (p : Port) (x : PortEngine) :
    (s.setEngine p x).part = s.part := rfl
@[simp] theorem State.setEngine_session (s : State) (p : Port) (x : PortEngine) (q : Port) :
    (s.setEngine p x).session q = s.session q := rfl
@[simp] theorem State.setEngine_queue (s : State) (p : Port) (x : PortEngine) (q : Port) :
    (s.setEngine p x).queue q = s.queue q := rfl
@[simp] theorem State.setEngine_cursor (s : State) (p : Port) (x : PortEngine) (q : Port) (d : SlotId) :
    (s.setEngine p x).cursor q d = s.cursor q d := rfl
@[simp] theorem State.setEngine_stack (s : State) (p : Port) (x : PortEngine) (q : Port) :
    (s.setEngine p x).stack q = s.stack q := rfl
@[simp] theorem State.setEngine_endsOf (s : State) (p : Port) (x : PortEngine) (q : Port) :
    (s.setEngine p x).endsOf q = s.endsOf q := rfl
@[simp] theorem State.setEngine_table (s : State) (p : Port) (x : PortEngine) (u : TableId) :
    (s.setEngine p x).table u = s.table u := rfl
@[simp] theorem State.setEngine_pair (s : State) (p : Port) (x : PortEngine) (u : TableId) :
    (s.setEngine p x).pair u = s.pair u := rfl

/-! ## setSession -/

@[simp] theorem State.setSession_pending (s : State) (p : Port) (x : Session) :
    (s.setSession p x).pending = s.pending := rfl
@[simp] theorem State.setSession_engines (s : State) (p : Port) (x : Session) :
    (s.setSession p x).engines = s.engines := rfl
@[simp] theorem State.setSession_ends (s : State) (p : Port) (x : Session) :
    (s.setSession p x).ends = s.ends := rfl
@[simp] theorem State.setSession_events (s : State) (p : Port) (x : Session) :
    (s.setSession p x).events = s.events := rfl
@[simp] theorem State.setSession_cursors (s : State) (p : Port) (x : Session) :
    (s.setSession p x).cursors = s.cursors := rfl
@[simp] theorem State.setSession_saveStacks (s : State) (p : Port) (x : Session) :
    (s.setSession p x).saveStacks = s.saveStacks := rfl
@[simp] theorem State.setSession_mem (s : State) (p : Port) (x : Session) :
    (s.setSession p x).mem = s.mem := rfl
@[simp] theorem State.setSession_memEpoch (s : State) (p : Port) (x : Session) :
    (s.setSession p x).memEpoch = s.memEpoch := rfl
@[simp] theorem State.setSession_freePool (s : State) (p : Port) (x : Session) :
    (s.setSession p x).freePool = s.freePool := rfl
@[simp] theorem State.setSession_quarantine (s : State) (p : Port) (x : Session) :
    (s.setSession p x).quarantine = s.quarantine := rfl
@[simp] theorem State.setSession_arbiter (s : State) (p : Port) (x : Session) :
    (s.setSession p x).arbiter = s.arbiter := rfl
@[simp] theorem State.setSession_tables (s : State) (p : Port) (x : Session) :
    (s.setSession p x).tables = s.tables := rfl
@[simp] theorem State.setSession_notices (s : State) (p : Port) (x : Session) :
    (s.setSession p x).notices = s.notices := rfl
@[simp] theorem State.setSession_reports (s : State) (p : Port) (x : Session) :
    (s.setSession p x).reports = s.reports := rfl
@[simp] theorem State.setSession_workList (s : State) (p : Port) (x : Session) :
    (s.setSession p x).workList = s.workList := rfl
@[simp] theorem State.setSession_headWork (s : State) (p : Port) (x : Session) :
    (s.setSession p x).headWork = s.headWork := rfl
@[simp] theorem State.setSession_scrub (s : State) (p : Port) (x : Session) :
    (s.setSession p x).scrub = s.scrub := rfl
@[simp] theorem State.setSession_imageQueue (s : State) (p : Port) (x : Session) :
    (s.setSession p x).imageQueue = s.imageQueue := rfl
@[simp] theorem State.setSession_imageWork (s : State) (p : Port) (x : Session) :
    (s.setSession p x).imageWork = s.imageWork := rfl
@[simp] theorem State.setSession_charterResults (s : State) (p : Port) (x : Session) :
    (s.setSession p x).charterResults = s.charterResults := rfl
@[simp] theorem State.setSession_store (s : State) (p : Port) (x : Session) :
    (s.setSession p x).store = s.store := rfl
@[simp] theorem State.setSession_charterSlots (s : State) (p : Port) (x : Session) :
    (s.setSession p x).charterSlots = s.charterSlots := rfl
@[simp] theorem State.setSession_supply (s : State) (p : Port) (x : Session) :
    (s.setSession p x).supply = s.supply := rfl
@[simp] theorem State.setSession_part (s : State) (p : Port) (x : Session) :
    (s.setSession p x).part = s.part := rfl
@[simp] theorem State.setSession_engine (s : State) (p : Port) (x : Session) (q : Port) :
    (s.setSession p x).engine q = s.engine q := rfl
@[simp] theorem State.setSession_queue (s : State) (p : Port) (x : Session) (q : Port) :
    (s.setSession p x).queue q = s.queue q := rfl
@[simp] theorem State.setSession_cursor (s : State) (p : Port) (x : Session) (q : Port) (d : SlotId) :
    (s.setSession p x).cursor q d = s.cursor q d := rfl
@[simp] theorem State.setSession_stack (s : State) (p : Port) (x : Session) (q : Port) :
    (s.setSession p x).stack q = s.stack q := rfl
@[simp] theorem State.setSession_endsOf (s : State) (p : Port) (x : Session) (q : Port) :
    (s.setSession p x).endsOf q = s.endsOf q := rfl
@[simp] theorem State.setSession_table (s : State) (p : Port) (x : Session) (u : TableId) :
    (s.setSession p x).table u = s.table u := rfl
@[simp] theorem State.setSession_pair (s : State) (p : Port) (x : Session) (u : TableId) :
    (s.setSession p x).pair u = s.pair u := rfl

/-! ## setQueue -/

@[simp] theorem State.setQueue_pending (s : State) (p : Port) (x : EventQueue) :
    (s.setQueue p x).pending = s.pending := rfl
@[simp] theorem State.setQueue_engines (s : State) (p : Port) (x : EventQueue) :
    (s.setQueue p x).engines = s.engines := rfl
@[simp] theorem State.setQueue_sessions (s : State) (p : Port) (x : EventQueue) :
    (s.setQueue p x).sessions = s.sessions := rfl
@[simp] theorem State.setQueue_ends (s : State) (p : Port) (x : EventQueue) :
    (s.setQueue p x).ends = s.ends := rfl
@[simp] theorem State.setQueue_cursors (s : State) (p : Port) (x : EventQueue) :
    (s.setQueue p x).cursors = s.cursors := rfl
@[simp] theorem State.setQueue_saveStacks (s : State) (p : Port) (x : EventQueue) :
    (s.setQueue p x).saveStacks = s.saveStacks := rfl
@[simp] theorem State.setQueue_mem (s : State) (p : Port) (x : EventQueue) :
    (s.setQueue p x).mem = s.mem := rfl
@[simp] theorem State.setQueue_memEpoch (s : State) (p : Port) (x : EventQueue) :
    (s.setQueue p x).memEpoch = s.memEpoch := rfl
@[simp] theorem State.setQueue_freePool (s : State) (p : Port) (x : EventQueue) :
    (s.setQueue p x).freePool = s.freePool := rfl
@[simp] theorem State.setQueue_quarantine (s : State) (p : Port) (x : EventQueue) :
    (s.setQueue p x).quarantine = s.quarantine := rfl
@[simp] theorem State.setQueue_arbiter (s : State) (p : Port) (x : EventQueue) :
    (s.setQueue p x).arbiter = s.arbiter := rfl
@[simp] theorem State.setQueue_tables (s : State) (p : Port) (x : EventQueue) :
    (s.setQueue p x).tables = s.tables := rfl
@[simp] theorem State.setQueue_notices (s : State) (p : Port) (x : EventQueue) :
    (s.setQueue p x).notices = s.notices := rfl
@[simp] theorem State.setQueue_reports (s : State) (p : Port) (x : EventQueue) :
    (s.setQueue p x).reports = s.reports := rfl
@[simp] theorem State.setQueue_workList (s : State) (p : Port) (x : EventQueue) :
    (s.setQueue p x).workList = s.workList := rfl
@[simp] theorem State.setQueue_headWork (s : State) (p : Port) (x : EventQueue) :
    (s.setQueue p x).headWork = s.headWork := rfl
@[simp] theorem State.setQueue_scrub (s : State) (p : Port) (x : EventQueue) :
    (s.setQueue p x).scrub = s.scrub := rfl
@[simp] theorem State.setQueue_imageQueue (s : State) (p : Port) (x : EventQueue) :
    (s.setQueue p x).imageQueue = s.imageQueue := rfl
@[simp] theorem State.setQueue_imageWork (s : State) (p : Port) (x : EventQueue) :
    (s.setQueue p x).imageWork = s.imageWork := rfl
@[simp] theorem State.setQueue_charterResults (s : State) (p : Port) (x : EventQueue) :
    (s.setQueue p x).charterResults = s.charterResults := rfl
@[simp] theorem State.setQueue_store (s : State) (p : Port) (x : EventQueue) :
    (s.setQueue p x).store = s.store := rfl
@[simp] theorem State.setQueue_charterSlots (s : State) (p : Port) (x : EventQueue) :
    (s.setQueue p x).charterSlots = s.charterSlots := rfl
@[simp] theorem State.setQueue_supply (s : State) (p : Port) (x : EventQueue) :
    (s.setQueue p x).supply = s.supply := rfl
@[simp] theorem State.setQueue_part (s : State) (p : Port) (x : EventQueue) :
    (s.setQueue p x).part = s.part := rfl
@[simp] theorem State.setQueue_engine (s : State) (p : Port) (x : EventQueue) (q : Port) :
    (s.setQueue p x).engine q = s.engine q := rfl
@[simp] theorem State.setQueue_session (s : State) (p : Port) (x : EventQueue) (q : Port) :
    (s.setQueue p x).session q = s.session q := rfl
@[simp] theorem State.setQueue_cursor (s : State) (p : Port) (x : EventQueue) (q : Port) (d : SlotId) :
    (s.setQueue p x).cursor q d = s.cursor q d := rfl
@[simp] theorem State.setQueue_stack (s : State) (p : Port) (x : EventQueue) (q : Port) :
    (s.setQueue p x).stack q = s.stack q := rfl
@[simp] theorem State.setQueue_endsOf (s : State) (p : Port) (x : EventQueue) (q : Port) :
    (s.setQueue p x).endsOf q = s.endsOf q := rfl
@[simp] theorem State.setQueue_table (s : State) (p : Port) (x : EventQueue) (u : TableId) :
    (s.setQueue p x).table u = s.table u := rfl
@[simp] theorem State.setQueue_pair (s : State) (p : Port) (x : EventQueue) (u : TableId) :
    (s.setQueue p x).pair u = s.pair u := rfl

/-! ## setCursor -/

@[simp] theorem State.setCursor_pending (s : State) (p : Port) (c : SlotId) (x : Context) :
    (s.setCursor p c x).pending = s.pending := rfl
@[simp] theorem State.setCursor_engines (s : State) (p : Port) (c : SlotId) (x : Context) :
    (s.setCursor p c x).engines = s.engines := rfl
@[simp] theorem State.setCursor_sessions (s : State) (p : Port) (c : SlotId) (x : Context) :
    (s.setCursor p c x).sessions = s.sessions := rfl
@[simp] theorem State.setCursor_ends (s : State) (p : Port) (c : SlotId) (x : Context) :
    (s.setCursor p c x).ends = s.ends := rfl
@[simp] theorem State.setCursor_events (s : State) (p : Port) (c : SlotId) (x : Context) :
    (s.setCursor p c x).events = s.events := rfl
@[simp] theorem State.setCursor_saveStacks (s : State) (p : Port) (c : SlotId) (x : Context) :
    (s.setCursor p c x).saveStacks = s.saveStacks := rfl
@[simp] theorem State.setCursor_mem (s : State) (p : Port) (c : SlotId) (x : Context) :
    (s.setCursor p c x).mem = s.mem := rfl
@[simp] theorem State.setCursor_memEpoch (s : State) (p : Port) (c : SlotId) (x : Context) :
    (s.setCursor p c x).memEpoch = s.memEpoch := rfl
@[simp] theorem State.setCursor_freePool (s : State) (p : Port) (c : SlotId) (x : Context) :
    (s.setCursor p c x).freePool = s.freePool := rfl
@[simp] theorem State.setCursor_quarantine (s : State) (p : Port) (c : SlotId) (x : Context) :
    (s.setCursor p c x).quarantine = s.quarantine := rfl
@[simp] theorem State.setCursor_arbiter (s : State) (p : Port) (c : SlotId) (x : Context) :
    (s.setCursor p c x).arbiter = s.arbiter := rfl
@[simp] theorem State.setCursor_tables (s : State) (p : Port) (c : SlotId) (x : Context) :
    (s.setCursor p c x).tables = s.tables := rfl
@[simp] theorem State.setCursor_notices (s : State) (p : Port) (c : SlotId) (x : Context) :
    (s.setCursor p c x).notices = s.notices := rfl
@[simp] theorem State.setCursor_reports (s : State) (p : Port) (c : SlotId) (x : Context) :
    (s.setCursor p c x).reports = s.reports := rfl
@[simp] theorem State.setCursor_workList (s : State) (p : Port) (c : SlotId) (x : Context) :
    (s.setCursor p c x).workList = s.workList := rfl
@[simp] theorem State.setCursor_headWork (s : State) (p : Port) (c : SlotId) (x : Context) :
    (s.setCursor p c x).headWork = s.headWork := rfl
@[simp] theorem State.setCursor_scrub (s : State) (p : Port) (c : SlotId) (x : Context) :
    (s.setCursor p c x).scrub = s.scrub := rfl
@[simp] theorem State.setCursor_imageQueue (s : State) (p : Port) (c : SlotId) (x : Context) :
    (s.setCursor p c x).imageQueue = s.imageQueue := rfl
@[simp] theorem State.setCursor_imageWork (s : State) (p : Port) (c : SlotId) (x : Context) :
    (s.setCursor p c x).imageWork = s.imageWork := rfl
@[simp] theorem State.setCursor_charterResults (s : State) (p : Port) (c : SlotId) (x : Context) :
    (s.setCursor p c x).charterResults = s.charterResults := rfl
@[simp] theorem State.setCursor_store (s : State) (p : Port) (c : SlotId) (x : Context) :
    (s.setCursor p c x).store = s.store := rfl
@[simp] theorem State.setCursor_charterSlots (s : State) (p : Port) (c : SlotId) (x : Context) :
    (s.setCursor p c x).charterSlots = s.charterSlots := rfl
@[simp] theorem State.setCursor_supply (s : State) (p : Port) (c : SlotId) (x : Context) :
    (s.setCursor p c x).supply = s.supply := rfl
@[simp] theorem State.setCursor_part (s : State) (p : Port) (c : SlotId) (x : Context) :
    (s.setCursor p c x).part = s.part := rfl
@[simp] theorem State.setCursor_engine (s : State) (p : Port) (c : SlotId) (x : Context) (q : Port) :
    (s.setCursor p c x).engine q = s.engine q := rfl
@[simp] theorem State.setCursor_session (s : State) (p : Port) (c : SlotId) (x : Context) (q : Port) :
    (s.setCursor p c x).session q = s.session q := rfl
@[simp] theorem State.setCursor_queue (s : State) (p : Port) (c : SlotId) (x : Context) (q : Port) :
    (s.setCursor p c x).queue q = s.queue q := rfl
@[simp] theorem State.setCursor_stack (s : State) (p : Port) (c : SlotId) (x : Context) (q : Port) :
    (s.setCursor p c x).stack q = s.stack q := rfl
@[simp] theorem State.setCursor_endsOf (s : State) (p : Port) (c : SlotId) (x : Context) (q : Port) :
    (s.setCursor p c x).endsOf q = s.endsOf q := rfl
@[simp] theorem State.setCursor_table (s : State) (p : Port) (c : SlotId) (x : Context) (u : TableId) :
    (s.setCursor p c x).table u = s.table u := rfl
@[simp] theorem State.setCursor_pair (s : State) (p : Port) (c : SlotId) (x : Context) (u : TableId) :
    (s.setCursor p c x).pair u = s.pair u := rfl

/-! ## setStack -/

@[simp] theorem State.setStack_pending (s : State) (p : Port) (x : List Context) :
    (s.setStack p x).pending = s.pending := rfl
@[simp] theorem State.setStack_engines (s : State) (p : Port) (x : List Context) :
    (s.setStack p x).engines = s.engines := rfl
@[simp] theorem State.setStack_sessions (s : State) (p : Port) (x : List Context) :
    (s.setStack p x).sessions = s.sessions := rfl
@[simp] theorem State.setStack_ends (s : State) (p : Port) (x : List Context) :
    (s.setStack p x).ends = s.ends := rfl
@[simp] theorem State.setStack_events (s : State) (p : Port) (x : List Context) :
    (s.setStack p x).events = s.events := rfl
@[simp] theorem State.setStack_cursors (s : State) (p : Port) (x : List Context) :
    (s.setStack p x).cursors = s.cursors := rfl
@[simp] theorem State.setStack_mem (s : State) (p : Port) (x : List Context) :
    (s.setStack p x).mem = s.mem := rfl
@[simp] theorem State.setStack_memEpoch (s : State) (p : Port) (x : List Context) :
    (s.setStack p x).memEpoch = s.memEpoch := rfl
@[simp] theorem State.setStack_freePool (s : State) (p : Port) (x : List Context) :
    (s.setStack p x).freePool = s.freePool := rfl
@[simp] theorem State.setStack_quarantine (s : State) (p : Port) (x : List Context) :
    (s.setStack p x).quarantine = s.quarantine := rfl
@[simp] theorem State.setStack_arbiter (s : State) (p : Port) (x : List Context) :
    (s.setStack p x).arbiter = s.arbiter := rfl
@[simp] theorem State.setStack_tables (s : State) (p : Port) (x : List Context) :
    (s.setStack p x).tables = s.tables := rfl
@[simp] theorem State.setStack_notices (s : State) (p : Port) (x : List Context) :
    (s.setStack p x).notices = s.notices := rfl
@[simp] theorem State.setStack_reports (s : State) (p : Port) (x : List Context) :
    (s.setStack p x).reports = s.reports := rfl
@[simp] theorem State.setStack_workList (s : State) (p : Port) (x : List Context) :
    (s.setStack p x).workList = s.workList := rfl
@[simp] theorem State.setStack_headWork (s : State) (p : Port) (x : List Context) :
    (s.setStack p x).headWork = s.headWork := rfl
@[simp] theorem State.setStack_scrub (s : State) (p : Port) (x : List Context) :
    (s.setStack p x).scrub = s.scrub := rfl
@[simp] theorem State.setStack_imageQueue (s : State) (p : Port) (x : List Context) :
    (s.setStack p x).imageQueue = s.imageQueue := rfl
@[simp] theorem State.setStack_imageWork (s : State) (p : Port) (x : List Context) :
    (s.setStack p x).imageWork = s.imageWork := rfl
@[simp] theorem State.setStack_charterResults (s : State) (p : Port) (x : List Context) :
    (s.setStack p x).charterResults = s.charterResults := rfl
@[simp] theorem State.setStack_store (s : State) (p : Port) (x : List Context) :
    (s.setStack p x).store = s.store := rfl
@[simp] theorem State.setStack_charterSlots (s : State) (p : Port) (x : List Context) :
    (s.setStack p x).charterSlots = s.charterSlots := rfl
@[simp] theorem State.setStack_supply (s : State) (p : Port) (x : List Context) :
    (s.setStack p x).supply = s.supply := rfl
@[simp] theorem State.setStack_part (s : State) (p : Port) (x : List Context) :
    (s.setStack p x).part = s.part := rfl
@[simp] theorem State.setStack_engine (s : State) (p : Port) (x : List Context) (q : Port) :
    (s.setStack p x).engine q = s.engine q := rfl
@[simp] theorem State.setStack_session (s : State) (p : Port) (x : List Context) (q : Port) :
    (s.setStack p x).session q = s.session q := rfl
@[simp] theorem State.setStack_queue (s : State) (p : Port) (x : List Context) (q : Port) :
    (s.setStack p x).queue q = s.queue q := rfl
@[simp] theorem State.setStack_cursor (s : State) (p : Port) (x : List Context) (q : Port) (d : SlotId) :
    (s.setStack p x).cursor q d = s.cursor q d := rfl
@[simp] theorem State.setStack_endsOf (s : State) (p : Port) (x : List Context) (q : Port) :
    (s.setStack p x).endsOf q = s.endsOf q := rfl
@[simp] theorem State.setStack_table (s : State) (p : Port) (x : List Context) (u : TableId) :
    (s.setStack p x).table u = s.table u := rfl
@[simp] theorem State.setStack_pair (s : State) (p : Port) (x : List Context) (u : TableId) :
    (s.setStack p x).pair u = s.pair u := rfl

/-! ## setEnds -/

@[simp] theorem State.setEnds_pending (s : State) (p : Port) (x : List EndBlock) :
    (s.setEnds p x).pending = s.pending := rfl
@[simp] theorem State.setEnds_engines (s : State) (p : Port) (x : List EndBlock) :
    (s.setEnds p x).engines = s.engines := rfl
@[simp] theorem State.setEnds_sessions (s : State) (p : Port) (x : List EndBlock) :
    (s.setEnds p x).sessions = s.sessions := rfl
@[simp] theorem State.setEnds_events (s : State) (p : Port) (x : List EndBlock) :
    (s.setEnds p x).events = s.events := rfl
@[simp] theorem State.setEnds_cursors (s : State) (p : Port) (x : List EndBlock) :
    (s.setEnds p x).cursors = s.cursors := rfl
@[simp] theorem State.setEnds_saveStacks (s : State) (p : Port) (x : List EndBlock) :
    (s.setEnds p x).saveStacks = s.saveStacks := rfl
@[simp] theorem State.setEnds_mem (s : State) (p : Port) (x : List EndBlock) :
    (s.setEnds p x).mem = s.mem := rfl
@[simp] theorem State.setEnds_memEpoch (s : State) (p : Port) (x : List EndBlock) :
    (s.setEnds p x).memEpoch = s.memEpoch := rfl
@[simp] theorem State.setEnds_freePool (s : State) (p : Port) (x : List EndBlock) :
    (s.setEnds p x).freePool = s.freePool := rfl
@[simp] theorem State.setEnds_quarantine (s : State) (p : Port) (x : List EndBlock) :
    (s.setEnds p x).quarantine = s.quarantine := rfl
@[simp] theorem State.setEnds_arbiter (s : State) (p : Port) (x : List EndBlock) :
    (s.setEnds p x).arbiter = s.arbiter := rfl
@[simp] theorem State.setEnds_tables (s : State) (p : Port) (x : List EndBlock) :
    (s.setEnds p x).tables = s.tables := rfl
@[simp] theorem State.setEnds_notices (s : State) (p : Port) (x : List EndBlock) :
    (s.setEnds p x).notices = s.notices := rfl
@[simp] theorem State.setEnds_reports (s : State) (p : Port) (x : List EndBlock) :
    (s.setEnds p x).reports = s.reports := rfl
@[simp] theorem State.setEnds_workList (s : State) (p : Port) (x : List EndBlock) :
    (s.setEnds p x).workList = s.workList := rfl
@[simp] theorem State.setEnds_headWork (s : State) (p : Port) (x : List EndBlock) :
    (s.setEnds p x).headWork = s.headWork := rfl
@[simp] theorem State.setEnds_scrub (s : State) (p : Port) (x : List EndBlock) :
    (s.setEnds p x).scrub = s.scrub := rfl
@[simp] theorem State.setEnds_imageQueue (s : State) (p : Port) (x : List EndBlock) :
    (s.setEnds p x).imageQueue = s.imageQueue := rfl
@[simp] theorem State.setEnds_imageWork (s : State) (p : Port) (x : List EndBlock) :
    (s.setEnds p x).imageWork = s.imageWork := rfl
@[simp] theorem State.setEnds_charterResults (s : State) (p : Port) (x : List EndBlock) :
    (s.setEnds p x).charterResults = s.charterResults := rfl
@[simp] theorem State.setEnds_store (s : State) (p : Port) (x : List EndBlock) :
    (s.setEnds p x).store = s.store := rfl
@[simp] theorem State.setEnds_charterSlots (s : State) (p : Port) (x : List EndBlock) :
    (s.setEnds p x).charterSlots = s.charterSlots := rfl
@[simp] theorem State.setEnds_supply (s : State) (p : Port) (x : List EndBlock) :
    (s.setEnds p x).supply = s.supply := rfl
@[simp] theorem State.setEnds_part (s : State) (p : Port) (x : List EndBlock) :
    (s.setEnds p x).part = s.part := rfl
@[simp] theorem State.setEnds_engine (s : State) (p : Port) (x : List EndBlock) (q : Port) :
    (s.setEnds p x).engine q = s.engine q := rfl
@[simp] theorem State.setEnds_session (s : State) (p : Port) (x : List EndBlock) (q : Port) :
    (s.setEnds p x).session q = s.session q := rfl
@[simp] theorem State.setEnds_queue (s : State) (p : Port) (x : List EndBlock) (q : Port) :
    (s.setEnds p x).queue q = s.queue q := rfl
@[simp] theorem State.setEnds_cursor (s : State) (p : Port) (x : List EndBlock) (q : Port) (d : SlotId) :
    (s.setEnds p x).cursor q d = s.cursor q d := rfl
@[simp] theorem State.setEnds_stack (s : State) (p : Port) (x : List EndBlock) (q : Port) :
    (s.setEnds p x).stack q = s.stack q := rfl
@[simp] theorem State.setEnds_table (s : State) (p : Port) (x : List EndBlock) (u : TableId) :
    (s.setEnds p x).table u = s.table u := rfl
@[simp] theorem State.setEnds_pair (s : State) (p : Port) (x : List EndBlock) (u : TableId) :
    (s.setEnds p x).pair u = s.pair u := rfl

/-! ## setTable -/

@[simp] theorem State.setTable_pending (s : State) (t : TableId) (x : TableRecord) :
    (s.setTable t x).pending = s.pending := rfl
@[simp] theorem State.setTable_engines (s : State) (t : TableId) (x : TableRecord) :
    (s.setTable t x).engines = s.engines := rfl
@[simp] theorem State.setTable_sessions (s : State) (t : TableId) (x : TableRecord) :
    (s.setTable t x).sessions = s.sessions := rfl
@[simp] theorem State.setTable_ends (s : State) (t : TableId) (x : TableRecord) :
    (s.setTable t x).ends = s.ends := rfl
@[simp] theorem State.setTable_events (s : State) (t : TableId) (x : TableRecord) :
    (s.setTable t x).events = s.events := rfl
@[simp] theorem State.setTable_cursors (s : State) (t : TableId) (x : TableRecord) :
    (s.setTable t x).cursors = s.cursors := rfl
@[simp] theorem State.setTable_saveStacks (s : State) (t : TableId) (x : TableRecord) :
    (s.setTable t x).saveStacks = s.saveStacks := rfl
@[simp] theorem State.setTable_mem (s : State) (t : TableId) (x : TableRecord) :
    (s.setTable t x).mem = s.mem := rfl
@[simp] theorem State.setTable_memEpoch (s : State) (t : TableId) (x : TableRecord) :
    (s.setTable t x).memEpoch = s.memEpoch := rfl
@[simp] theorem State.setTable_freePool (s : State) (t : TableId) (x : TableRecord) :
    (s.setTable t x).freePool = s.freePool := rfl
@[simp] theorem State.setTable_quarantine (s : State) (t : TableId) (x : TableRecord) :
    (s.setTable t x).quarantine = s.quarantine := rfl
@[simp] theorem State.setTable_arbiter (s : State) (t : TableId) (x : TableRecord) :
    (s.setTable t x).arbiter = s.arbiter := rfl
@[simp] theorem State.setTable_notices (s : State) (t : TableId) (x : TableRecord) :
    (s.setTable t x).notices = s.notices := rfl
@[simp] theorem State.setTable_reports (s : State) (t : TableId) (x : TableRecord) :
    (s.setTable t x).reports = s.reports := rfl
@[simp] theorem State.setTable_workList (s : State) (t : TableId) (x : TableRecord) :
    (s.setTable t x).workList = s.workList := rfl
@[simp] theorem State.setTable_headWork (s : State) (t : TableId) (x : TableRecord) :
    (s.setTable t x).headWork = s.headWork := rfl
@[simp] theorem State.setTable_scrub (s : State) (t : TableId) (x : TableRecord) :
    (s.setTable t x).scrub = s.scrub := rfl
@[simp] theorem State.setTable_imageQueue (s : State) (t : TableId) (x : TableRecord) :
    (s.setTable t x).imageQueue = s.imageQueue := rfl
@[simp] theorem State.setTable_imageWork (s : State) (t : TableId) (x : TableRecord) :
    (s.setTable t x).imageWork = s.imageWork := rfl
@[simp] theorem State.setTable_charterResults (s : State) (t : TableId) (x : TableRecord) :
    (s.setTable t x).charterResults = s.charterResults := rfl
@[simp] theorem State.setTable_store (s : State) (t : TableId) (x : TableRecord) :
    (s.setTable t x).store = s.store := rfl
@[simp] theorem State.setTable_charterSlots (s : State) (t : TableId) (x : TableRecord) :
    (s.setTable t x).charterSlots = s.charterSlots := rfl
@[simp] theorem State.setTable_supply (s : State) (t : TableId) (x : TableRecord) :
    (s.setTable t x).supply = s.supply := rfl
@[simp] theorem State.setTable_part (s : State) (t : TableId) (x : TableRecord) :
    (s.setTable t x).part = s.part := rfl
@[simp] theorem State.setTable_engine (s : State) (t : TableId) (x : TableRecord) (q : Port) :
    (s.setTable t x).engine q = s.engine q := rfl
@[simp] theorem State.setTable_session (s : State) (t : TableId) (x : TableRecord) (q : Port) :
    (s.setTable t x).session q = s.session q := rfl
@[simp] theorem State.setTable_queue (s : State) (t : TableId) (x : TableRecord) (q : Port) :
    (s.setTable t x).queue q = s.queue q := rfl
@[simp] theorem State.setTable_cursor (s : State) (t : TableId) (x : TableRecord) (q : Port) (d : SlotId) :
    (s.setTable t x).cursor q d = s.cursor q d := rfl
@[simp] theorem State.setTable_stack (s : State) (t : TableId) (x : TableRecord) (q : Port) :
    (s.setTable t x).stack q = s.stack q := rfl
@[simp] theorem State.setTable_endsOf (s : State) (t : TableId) (x : TableRecord) (q : Port) :
    (s.setTable t x).endsOf q = s.endsOf q := rfl
@[simp] theorem State.setTable_pair (s : State) (t : TableId) (x : TableRecord) (u : TableId) :
    (s.setTable t x).pair u = s.pair u := rfl

/-! ## setPair -/

@[simp] theorem State.setPair_pending (s : State) (t : TableId) (x : TablePair) :
    (s.setPair t x).pending = s.pending := rfl
@[simp] theorem State.setPair_engines (s : State) (t : TableId) (x : TablePair) :
    (s.setPair t x).engines = s.engines := rfl
@[simp] theorem State.setPair_sessions (s : State) (t : TableId) (x : TablePair) :
    (s.setPair t x).sessions = s.sessions := rfl
@[simp] theorem State.setPair_ends (s : State) (t : TableId) (x : TablePair) :
    (s.setPair t x).ends = s.ends := rfl
@[simp] theorem State.setPair_events (s : State) (t : TableId) (x : TablePair) :
    (s.setPair t x).events = s.events := rfl
@[simp] theorem State.setPair_cursors (s : State) (t : TableId) (x : TablePair) :
    (s.setPair t x).cursors = s.cursors := rfl
@[simp] theorem State.setPair_saveStacks (s : State) (t : TableId) (x : TablePair) :
    (s.setPair t x).saveStacks = s.saveStacks := rfl
@[simp] theorem State.setPair_mem (s : State) (t : TableId) (x : TablePair) :
    (s.setPair t x).mem = s.mem := rfl
@[simp] theorem State.setPair_memEpoch (s : State) (t : TableId) (x : TablePair) :
    (s.setPair t x).memEpoch = s.memEpoch := rfl
@[simp] theorem State.setPair_freePool (s : State) (t : TableId) (x : TablePair) :
    (s.setPair t x).freePool = s.freePool := rfl
@[simp] theorem State.setPair_quarantine (s : State) (t : TableId) (x : TablePair) :
    (s.setPair t x).quarantine = s.quarantine := rfl
@[simp] theorem State.setPair_arbiter (s : State) (t : TableId) (x : TablePair) :
    (s.setPair t x).arbiter = s.arbiter := rfl
@[simp] theorem State.setPair_tables (s : State) (t : TableId) (x : TablePair) :
    (s.setPair t x).tables = s.tables := rfl
@[simp] theorem State.setPair_notices (s : State) (t : TableId) (x : TablePair) :
    (s.setPair t x).notices = s.notices := rfl
@[simp] theorem State.setPair_reports (s : State) (t : TableId) (x : TablePair) :
    (s.setPair t x).reports = s.reports := rfl
@[simp] theorem State.setPair_workList (s : State) (t : TableId) (x : TablePair) :
    (s.setPair t x).workList = s.workList := rfl
@[simp] theorem State.setPair_headWork (s : State) (t : TableId) (x : TablePair) :
    (s.setPair t x).headWork = s.headWork := rfl
@[simp] theorem State.setPair_scrub (s : State) (t : TableId) (x : TablePair) :
    (s.setPair t x).scrub = s.scrub := rfl
@[simp] theorem State.setPair_imageQueue (s : State) (t : TableId) (x : TablePair) :
    (s.setPair t x).imageQueue = s.imageQueue := rfl
@[simp] theorem State.setPair_imageWork (s : State) (t : TableId) (x : TablePair) :
    (s.setPair t x).imageWork = s.imageWork := rfl
@[simp] theorem State.setPair_charterResults (s : State) (t : TableId) (x : TablePair) :
    (s.setPair t x).charterResults = s.charterResults := rfl
@[simp] theorem State.setPair_charterSlots (s : State) (t : TableId) (x : TablePair) :
    (s.setPair t x).charterSlots = s.charterSlots := rfl
@[simp] theorem State.setPair_supply (s : State) (t : TableId) (x : TablePair) :
    (s.setPair t x).supply = s.supply := rfl
@[simp] theorem State.setPair_part (s : State) (t : TableId) (x : TablePair) :
    (s.setPair t x).part = s.part := rfl
@[simp] theorem State.setPair_engine (s : State) (t : TableId) (x : TablePair) (q : Port) :
    (s.setPair t x).engine q = s.engine q := rfl
@[simp] theorem State.setPair_session (s : State) (t : TableId) (x : TablePair) (q : Port) :
    (s.setPair t x).session q = s.session q := rfl
@[simp] theorem State.setPair_queue (s : State) (t : TableId) (x : TablePair) (q : Port) :
    (s.setPair t x).queue q = s.queue q := rfl
@[simp] theorem State.setPair_cursor (s : State) (t : TableId) (x : TablePair) (q : Port) (d : SlotId) :
    (s.setPair t x).cursor q d = s.cursor q d := rfl
@[simp] theorem State.setPair_stack (s : State) (t : TableId) (x : TablePair) (q : Port) :
    (s.setPair t x).stack q = s.stack q := rfl
@[simp] theorem State.setPair_endsOf (s : State) (t : TableId) (x : TablePair) (q : Port) :
    (s.setPair t x).endsOf q = s.endsOf q := rfl
@[simp] theorem State.setPair_table (s : State) (t : TableId) (x : TablePair) (u : TableId) :
    (s.setPair t x).table u = s.table u := rfl

/-! ## Reading back -/

@[simp] theorem State.engine_setEngine_self (s : State) (p : Port) (x : PortEngine) : (s.setEngine p x).engine p = x := by
  simp [State.engine, State.setEngine]
theorem State.engine_setEngine_other (s : State) (p : Port) (x : PortEngine) {q : Port} (h : q ≠ p) :
    (s.setEngine p x).engine q = s.engine q := by
  have h1 : p.val ≠ q.val := fun e => h (Fin.ext e.symm)
  simp [State.engine, State.setEngine, Vector.getElem_set_ne _ _ h1]
/-- An update by the value that stands there changes nothing. -/
@[simp] theorem State.setEngine_same (s : State) (p : Port) : s.setEngine p (s.engine p) = s := by
  simp [State.engine, State.setEngine]
/-- Of two updates at one place the later stands. -/
@[simp] theorem State.setEngine_setEngine (s : State) (p : Port) (x y : PortEngine) :
    (s.setEngine p x).setEngine p y = s.setEngine p y := by
  simp [State.setEngine]

@[simp] theorem State.session_setSession_self (s : State) (p : Port) (x : Session) : (s.setSession p x).session p = x := by
  simp [State.session, State.setSession]
theorem State.session_setSession_other (s : State) (p : Port) (x : Session) {q : Port} (h : q ≠ p) :
    (s.setSession p x).session q = s.session q := by
  have h1 : p.val ≠ q.val := fun e => h (Fin.ext e.symm)
  simp [State.session, State.setSession, Vector.getElem_set_ne _ _ h1]
/-- An update by the value that stands there changes nothing. -/
@[simp] theorem State.setSession_same (s : State) (p : Port) : s.setSession p (s.session p) = s := by
  simp [State.session, State.setSession]
/-- Of two updates at one place the later stands. -/
@[simp] theorem State.setSession_setSession (s : State) (p : Port) (x y : Session) :
    (s.setSession p x).setSession p y = s.setSession p y := by
  simp [State.setSession]

@[simp] theorem State.queue_setQueue_self (s : State) (p : Port) (x : EventQueue) : (s.setQueue p x).queue p = x := by
  simp [State.queue, State.setQueue]
theorem State.queue_setQueue_other (s : State) (p : Port) (x : EventQueue) {q : Port} (h : q ≠ p) :
    (s.setQueue p x).queue q = s.queue q := by
  have h1 : p.val ≠ q.val := fun e => h (Fin.ext e.symm)
  simp [State.queue, State.setQueue, Vector.getElem_set_ne _ _ h1]
/-- An update by the value that stands there changes nothing. -/
@[simp] theorem State.setQueue_same (s : State) (p : Port) : s.setQueue p (s.queue p) = s := by
  simp [State.queue, State.setQueue]
/-- Of two updates at one place the later stands. -/
@[simp] theorem State.setQueue_setQueue (s : State) (p : Port) (x y : EventQueue) :
    (s.setQueue p x).setQueue p y = s.setQueue p y := by
  simp [State.setQueue]

@[simp] theorem State.stack_setStack_self (s : State) (p : Port) (x : List Context) : (s.setStack p x).stack p = x := by
  simp [State.stack, State.setStack]
theorem State.stack_setStack_other (s : State) (p : Port) (x : List Context) {q : Port} (h : q ≠ p) :
    (s.setStack p x).stack q = s.stack q := by
  have h1 : p.val ≠ q.val := fun e => h (Fin.ext e.symm)
  simp [State.stack, State.setStack, Vector.getElem_set_ne _ _ h1]
/-- An update by the value that stands there changes nothing. -/
@[simp] theorem State.setStack_same (s : State) (p : Port) : s.setStack p (s.stack p) = s := by
  simp [State.stack, State.setStack]
/-- Of two updates at one place the later stands. -/
@[simp] theorem State.setStack_setStack (s : State) (p : Port) (x y : List Context) :
    (s.setStack p x).setStack p y = s.setStack p y := by
  simp [State.setStack]

@[simp] theorem State.endsOf_setEnds_self (s : State) (p : Port) (x : List EndBlock) : (s.setEnds p x).endsOf p = x := by
  simp [State.endsOf, State.setEnds]
theorem State.endsOf_setEnds_other (s : State) (p : Port) (x : List EndBlock) {q : Port} (h : q ≠ p) :
    (s.setEnds p x).endsOf q = s.endsOf q := by
  have h1 : p.val ≠ q.val := fun e => h (Fin.ext e.symm)
  simp [State.endsOf, State.setEnds, Vector.getElem_set_ne _ _ h1]
/-- An update by the value that stands there changes nothing. -/
@[simp] theorem State.setEnds_same (s : State) (p : Port) : s.setEnds p (s.endsOf p) = s := by
  simp [State.endsOf, State.setEnds]
/-- Of two updates at one place the later stands. -/
@[simp] theorem State.setEnds_setEnds (s : State) (p : Port) (x y : List EndBlock) :
    (s.setEnds p x).setEnds p y = s.setEnds p y := by
  simp [State.setEnds]

@[simp] theorem State.table_setTable_self (s : State) (t : TableId) (x : TableRecord) : (s.setTable t x).table t = x := by
  simp [State.table, State.setTable]
theorem State.table_setTable_other (s : State) (t : TableId) (x : TableRecord) {u : TableId} (h : u ≠ t) :
    (s.setTable t x).table u = s.table u := by
  have h1 : t.val ≠ u.val := fun e => h (Fin.ext e.symm)
  simp [State.table, State.setTable, Vector.getElem_set_ne _ _ h1]
/-- An update by the value that stands there changes nothing. -/
@[simp] theorem State.setTable_same (s : State) (t : TableId) : s.setTable t (s.table t) = s := by
  simp [State.table, State.setTable]
/-- Of two updates at one place the later stands. -/
@[simp] theorem State.setTable_setTable (s : State) (t : TableId) (x y : TableRecord) :
    (s.setTable t x).setTable t y = s.setTable t y := by
  simp [State.setTable]

@[simp] theorem State.pair_setPair_self (s : State) (t : TableId) (x : TablePair) : (s.setPair t x).pair t = x := by
  simp [State.pair, State.setPair]
theorem State.pair_setPair_other (s : State) (t : TableId) (x : TablePair) {u : TableId} (h : u ≠ t) :
    (s.setPair t x).pair u = s.pair u := by
  have h1 : t.val ≠ u.val := fun e => h (Fin.ext e.symm)
  simp [State.pair, State.setPair, Vector.getElem_set_ne _ _ h1]
/-- An update by the value that stands there changes nothing. -/
@[simp] theorem State.setPair_same (s : State) (t : TableId) : s.setPair t (s.pair t) = s := by
  simp [State.pair, State.setPair]
/-- Of two updates at one place the later stands. -/
@[simp] theorem State.setPair_setPair (s : State) (t : TableId) (x y : TablePair) :
    (s.setPair t x).setPair t y = s.setPair t y := by
  simp [State.setPair]

@[simp] theorem State.cursor_setCursor_self (s : State) (p : Port) (c : SlotId) (x : Context) :
    (s.setCursor p c x).cursor p c = x := by
  simp [State.cursor, State.setCursor]
theorem State.cursor_setCursor_slot (s : State) (p : Port) {c d : SlotId} (x : Context)
    (h : d ≠ c) : (s.setCursor p c x).cursor p d = s.cursor p d := by
  have h1 : c.val ≠ d.val := fun e => h (Fin.ext e.symm)
  simp [State.cursor, State.setCursor, Vector.getElem_set_ne _ _ h1]
theorem State.cursor_setCursor_port (s : State) {p q : Port} (c d : SlotId) (x : Context)
    (h : q ≠ p) : (s.setCursor p c x).cursor q d = s.cursor q d := by
  have h1 : p.val ≠ q.val := fun e => h (Fin.ext e.symm)
  simp [State.cursor, State.setCursor, Vector.getElem_set_ne _ _ h1]
theorem State.cursor_setCursor_ne (s : State) {p q : Port} {c d : SlotId} (x : Context)
    (h : (q, d) ≠ (p, c)) : (s.setCursor p c x).cursor q d = s.cursor q d := by
  by_cases hq : q = p
  · subst hq
    exact State.cursor_setCursor_slot s q x (fun e => h (by rw [e]))
  · exact State.cursor_setCursor_port s c d x hq
/-- A slot written with the context it holds is unchanged. -/
@[simp] theorem State.setCursor_same (s : State) (p : Port) (c : SlotId) :
    s.setCursor p c (s.cursor p c) = s := by
  simp [State.cursor, State.setCursor]
/-- Of two writes of one slot the later stands. -/
@[simp] theorem State.setCursor_setCursor (s : State) (p : Port) (c : SlotId) (x y : Context) :
    (s.setCursor p c x).setCursor p c y = s.setCursor p c y := by
  simp [State.setCursor]

/-! ## Where a request stands -/

theorem State.turn_of_inProgress {s : State} {p : Port} {job : InProgress}
    (h : (s.engine p).inProgress = some job) : s.turn p = job.turn := by
  simp [State.turn, h]
/-- A request in progress put at another place. -/
theorem State.setTurn_of_inProgress {s : State} {p : Port} {job : InProgress} (turn : Turn)
    (h : (s.engine p).inProgress = some job) :
    s.setTurn p turn
      = s.setEngine p { s.engine p with inProgress := some { job with turn := turn } } := by
  simp [State.setTurn, h]
/-- Of two places the later stands. -/
@[simp] theorem State.setTurn_setTurn (s : State) (p : Port) (x y : Turn) :
    (s.setTurn p x).setTurn p y = s.setTurn p y := by
  simp [State.setTurn, Function.comp_def]
theorem State.turn_setTurn_ne (s : State) {p q : Port} (x : Turn) (h : q ≠ p) :
    (s.setTurn p x).turn q = s.turn q := by
  simp [State.turn, State.setTurn, State.engine_setEngine_other _ _ _ h]

end Sys2Proof.Machine
end

