-- ==== Sys2Proof/Laws/Directory.lean ====
section
/-! SUPPORT. What each shared operation of the event unit, the page pool and the table directory
changes, said once: a frame lemma for each, and the fields it leaves, as rewriting rules. -/

namespace Sys2Proof.Machine

/-! ## Frames -/

/-- Entering an event changes event queues only. -/
theorem State.enterEvent_frame (s : State) (q : Port) (named : Option Nat) (e : Event) :
    s.enterEvent q named e = s.withEventsOf (s.enterEvent q named e) := by
  unfold State.enterEvent
  split <;> rfl

theorem State.enterEvents_frame (s : State) (ports : List Port) (e : Event) :
    s.enterEvents ports e = s.withEventsOf (s.enterEvents ports e) := by
  induction ports generalizing s with
  | nil => rfl
  | cons q rest ih =>
    have h : s.enterEvents (q :: rest) e = (s.enterEvent q none e).enterEvents rest e := rfl
    rw [h, ih, State.enterEvent_frame]
    rfl

theorem State.tellWriter_frame (s : State) (t : TableId) (n : Nat) (e : Event) :
    s.tellWriter t n e = s.withEventsOf (s.tellWriter t n e) := by
  unfold State.tellWriter
  split
  · exact State.enterEvent_frame ..
  · rfl

theorem State.enterDamage_frame (s : State) (t : TableId) (n : Nat) (cause : Status) :
    s.enterDamage t n cause = s.withEventsOf (s.enterDamage t n cause) :=
  State.enterEvents_frame ..

/-- A release changes the free pool and the quarantine list only. -/
theorem State.releasePages_frame (s : State) (pages faulty : List Nat) :
    s.releasePages pages faulty
      = { s with
          freePool := (s.releasePages pages faulty).freePool
          quarantine := (s.releasePages pages faulty).quarantine } := rfl

/-- A report changes table records and event queues only. -/
theorem State.parityReport_frame (s : State) (t : TableId) (n page : Nat) :
    s.parityReport t n page = s.withRecordsOf (s.parityReport t n page) := by
  unfold State.parityReport
  dsimp only
  repeat' split
  all_goals first
    | rfl
    | (rw [State.enterDamage_frame]; rfl)

theorem State.checkReport_frame (s : State) (t : TableId) (n : Nat) :
    s.checkReport t n = s.withRecordsOf (s.checkReport t n) := by
  unfold State.checkReport
  repeat' split
  all_goals first
    | rfl
    | (rw [State.enterDamage_frame]; rfl)

/-- Retirement, unpin, rebind, release and swap change what the directory, the pool and the event unit
hold, and nothing else. -/
theorem State.retire_frame (s : State) (t : TableId) :
    s.retire t = s.withDirectoryOf (s.retire t) := by
  unfold State.retire
  dsimp only
  repeat' split
  all_goals first
    | rfl
    | (rw [State.enterEvent_frame]; rfl)

theorem State.unpin_frame (s : State) (t : TableId) (n : Nat) :
    s.unpin t n = s.withDirectoryOf (s.unpin t n) := by
  unfold State.unpin
  dsimp only
  repeat' split
  all_goals first
    | rfl
    | (rw [State.retire_frame]; rfl)

theorem State.releaseStaged_frame (s : State) (t : TableId) :
    s.releaseStaged t = s.withDirectoryOf (s.releaseStaged t) := by
  unfold State.releaseStaged
  split <;> rfl

theorem State.swap_frame (s : State) (t : TableId) :
    s.swap t = s.withDirectoryOf (s.swap t) := by
  unfold State.swap
  dsimp only
  repeat' split
  all_goals first
    | rfl
    | (rw [State.enterEvents_frame]; rfl)

/-- A grant moves the pointer past the requestor granted, and changes nothing else. -/
theorem State.grant_eq (s : State) (r : Requestor) :
    s.grant r = { s with arbiter := r.next } := rfl

/-! ## enterEvent: the fields it leaves -/

section
variable (s : State) (q : Port) (named : Option Nat) (e : Event)
@[simp] theorem State.enterEvent_pending : (s.enterEvent q named e).pending = s.pending :=
  (congrArg State.pending (s.enterEvent_frame q named e)).trans rfl
@[simp] theorem State.enterEvent_engines : (s.enterEvent q named e).engines = s.engines :=
  (congrArg State.engines (s.enterEvent_frame q named e)).trans rfl
@[simp] theorem State.enterEvent_sessions : (s.enterEvent q named e).sessions = s.sessions :=
  (congrArg State.sessions (s.enterEvent_frame q named e)).trans rfl
@[simp] theorem State.enterEvent_ends : (s.enterEvent q named e).ends = s.ends :=
  (congrArg State.ends (s.enterEvent_frame q named e)).trans rfl
@[simp] theorem State.enterEvent_cursors : (s.enterEvent q named e).cursors = s.cursors :=
  (congrArg State.cursors (s.enterEvent_frame q named e)).trans rfl
@[simp] theorem State.enterEvent_saveStacks : (s.enterEvent q named e).saveStacks = s.saveStacks :=
  (congrArg State.saveStacks (s.enterEvent_frame q named e)).trans rfl
@[simp] theorem State.enterEvent_mem : (s.enterEvent q named e).mem = s.mem :=
  (congrArg State.mem (s.enterEvent_frame q named e)).trans rfl
@[simp] theorem State.enterEvent_memEpoch : (s.enterEvent q named e).memEpoch = s.memEpoch :=
  (congrArg State.memEpoch (s.enterEvent_frame q named e)).trans rfl
@[simp] theorem State.enterEvent_freePool : (s.enterEvent q named e).freePool = s.freePool :=
  (congrArg State.freePool (s.enterEvent_frame q named e)).trans rfl
@[simp] theorem State.enterEvent_quarantine : (s.enterEvent q named e).quarantine = s.quarantine :=
  (congrArg State.quarantine (s.enterEvent_frame q named e)).trans rfl
@[simp] theorem State.enterEvent_arbiter : (s.enterEvent q named e).arbiter = s.arbiter :=
  (congrArg State.arbiter (s.enterEvent_frame q named e)).trans rfl
@[simp] theorem State.enterEvent_tables : (s.enterEvent q named e).tables = s.tables :=
  (congrArg State.tables (s.enterEvent_frame q named e)).trans rfl
@[simp] theorem State.enterEvent_notices : (s.enterEvent q named e).notices = s.notices :=
  (congrArg State.notices (s.enterEvent_frame q named e)).trans rfl
@[simp] theorem State.enterEvent_reports : (s.enterEvent q named e).reports = s.reports :=
  (congrArg State.reports (s.enterEvent_frame q named e)).trans rfl
@[simp] theorem State.enterEvent_workList : (s.enterEvent q named e).workList = s.workList :=
  (congrArg State.workList (s.enterEvent_frame q named e)).trans rfl
@[simp] theorem State.enterEvent_headWork : (s.enterEvent q named e).headWork = s.headWork :=
  (congrArg State.headWork (s.enterEvent_frame q named e)).trans rfl
@[simp] theorem State.enterEvent_scrub : (s.enterEvent q named e).scrub = s.scrub :=
  (congrArg State.scrub (s.enterEvent_frame q named e)).trans rfl
@[simp] theorem State.enterEvent_imageQueue : (s.enterEvent q named e).imageQueue = s.imageQueue :=
  (congrArg State.imageQueue (s.enterEvent_frame q named e)).trans rfl
@[simp] theorem State.enterEvent_imageWork : (s.enterEvent q named e).imageWork = s.imageWork :=
  (congrArg State.imageWork (s.enterEvent_frame q named e)).trans rfl
@[simp] theorem State.enterEvent_charterResults :
    (s.enterEvent q named e).charterResults = s.charterResults :=
  (congrArg State.charterResults (s.enterEvent_frame q named e)).trans rfl
@[simp] theorem State.enterEvent_store : (s.enterEvent q named e).store = s.store :=
  (congrArg State.store (s.enterEvent_frame q named e)).trans rfl
@[simp] theorem State.enterEvent_charterSlots :
    (s.enterEvent q named e).charterSlots = s.charterSlots :=
  (congrArg State.charterSlots (s.enterEvent_frame q named e)).trans rfl
@[simp] theorem State.enterEvent_supply : (s.enterEvent q named e).supply = s.supply :=
  (congrArg State.supply (s.enterEvent_frame q named e)).trans rfl
@[simp] theorem State.enterEvent_part : (s.enterEvent q named e).part = s.part :=
  (congrArg State.part (s.enterEvent_frame q named e)).trans rfl
@[simp] theorem State.enterEvent_engine (p : Port) :
    (s.enterEvent q named e).engine p = s.engine p :=
  (congrArg (fun z : State => z.engine p) (s.enterEvent_frame q named e)).trans rfl
@[simp] theorem State.enterEvent_session (p : Port) :
    (s.enterEvent q named e).session p = s.session p :=
  (congrArg (fun z : State => z.session p) (s.enterEvent_frame q named e)).trans rfl
@[simp] theorem State.enterEvent_cursor (p : Port) (c : SlotId) :
    (s.enterEvent q named e).cursor p c = s.cursor p c :=
  (congrArg (fun z : State => z.cursor p c) (s.enterEvent_frame q named e)).trans rfl
@[simp] theorem State.enterEvent_stack (p : Port) : (s.enterEvent q named e).stack p = s.stack p :=
  (congrArg (fun z : State => z.stack p) (s.enterEvent_frame q named e)).trans rfl
@[simp] theorem State.enterEvent_endsOf (p : Port) :
    (s.enterEvent q named e).endsOf p = s.endsOf p :=
  (congrArg (fun z : State => z.endsOf p) (s.enterEvent_frame q named e)).trans rfl
@[simp] theorem State.enterEvent_table (u : TableId) :
    (s.enterEvent q named e).table u = s.table u :=
  (congrArg (fun z : State => z.table u) (s.enterEvent_frame q named e)).trans rfl
@[simp] theorem State.enterEvent_pair (u : TableId) : (s.enterEvent q named e).pair u = s.pair u :=
  (congrArg (fun z : State => z.pair u) (s.enterEvent_frame q named e)).trans rfl
@[simp] theorem State.enterEvent_versionWord (l : List Nat) (o : Nat) :
    (s.enterEvent q named e).versionWord l o = s.versionWord l o :=
  (congrArg (fun z : State => z.versionWord l o) (s.enterEvent_frame q named e)).trans rfl
end

/-! ## enterEvents: the fields it leaves -/

section
variable (s : State) (ports : List Port) (e : Event)
@[simp] theorem State.enterEvents_pending : (s.enterEvents ports e).pending = s.pending :=
  (congrArg State.pending (s.enterEvents_frame ports e)).trans rfl
@[simp] theorem State.enterEvents_engines : (s.enterEvents ports e).engines = s.engines :=
  (congrArg State.engines (s.enterEvents_frame ports e)).trans rfl
@[simp] theorem State.enterEvents_sessions : (s.enterEvents ports e).sessions = s.sessions :=
  (congrArg State.sessions (s.enterEvents_frame ports e)).trans rfl
@[simp] theorem State.enterEvents_ends : (s.enterEvents ports e).ends = s.ends :=
  (congrArg State.ends (s.enterEvents_frame ports e)).trans rfl
@[simp] theorem State.enterEvents_cursors : (s.enterEvents ports e).cursors = s.cursors :=
  (congrArg State.cursors (s.enterEvents_frame ports e)).trans rfl
@[simp] theorem State.enterEvents_saveStacks : (s.enterEvents ports e).saveStacks = s.saveStacks :=
  (congrArg State.saveStacks (s.enterEvents_frame ports e)).trans rfl
@[simp] theorem State.enterEvents_mem : (s.enterEvents ports e).mem = s.mem :=
  (congrArg State.mem (s.enterEvents_frame ports e)).trans rfl
@[simp] theorem State.enterEvents_memEpoch : (s.enterEvents ports e).memEpoch = s.memEpoch :=
  (congrArg State.memEpoch (s.enterEvents_frame ports e)).trans rfl
@[simp] theorem State.enterEvents_freePool : (s.enterEvents ports e).freePool = s.freePool :=
  (congrArg State.freePool (s.enterEvents_frame ports e)).trans rfl
@[simp] theorem State.enterEvents_quarantine : (s.enterEvents ports e).quarantine = s.quarantine :=
  (congrArg State.quarantine (s.enterEvents_frame ports e)).trans rfl
@[simp] theorem State.enterEvents_arbiter : (s.enterEvents ports e).arbiter = s.arbiter :=
  (congrArg State.arbiter (s.enterEvents_frame ports e)).trans rfl
@[simp] theorem State.enterEvents_tables : (s.enterEvents ports e).tables = s.tables :=
  (congrArg State.tables (s.enterEvents_frame ports e)).trans rfl
@[simp] theorem State.enterEvents_notices : (s.enterEvents ports e).notices = s.notices :=
  (congrArg State.notices (s.enterEvents_frame ports e)).trans rfl
@[simp] theorem State.enterEvents_reports : (s.enterEvents ports e).reports = s.reports :=
  (congrArg State.reports (s.enterEvents_frame ports e)).trans rfl
@[simp] theorem State.enterEvents_workList : (s.enterEvents ports e).workList = s.workList :=
  (congrArg State.workList (s.enterEvents_frame ports e)).trans rfl
@[simp] theorem State.enterEvents_headWork : (s.enterEvents ports e).headWork = s.headWork :=
  (congrArg State.headWork (s.enterEvents_frame ports e)).trans rfl
@[simp] theorem State.enterEvents_scrub : (s.enterEvents ports e).scrub = s.scrub :=
  (congrArg State.scrub (s.enterEvents_frame ports e)).trans rfl
@[simp] theorem State.enterEvents_imageQueue : (s.enterEvents ports e).imageQueue = s.imageQueue :=
  (congrArg State.imageQueue (s.enterEvents_frame ports e)).trans rfl
@[simp] theorem State.enterEvents_imageWork : (s.enterEvents ports e).imageWork = s.imageWork :=
  (congrArg State.imageWork (s.enterEvents_frame ports e)).trans rfl
@[simp] theorem State.enterEvents_charterResults :
    (s.enterEvents ports e).charterResults = s.charterResults :=
  (congrArg State.charterResults (s.enterEvents_frame ports e)).trans rfl
@[simp] theorem State.enterEvents_store : (s.enterEvents ports e).store = s.store :=
  (congrArg State.store (s.enterEvents_frame ports e)).trans rfl
@[simp] theorem State.enterEvents_charterSlots :
    (s.enterEvents ports e).charterSlots = s.charterSlots :=
  (congrArg State.charterSlots (s.enterEvents_frame ports e)).trans rfl
@[simp] theorem State.enterEvents_supply : (s.enterEvents ports e).supply = s.supply :=
  (congrArg State.supply (s.enterEvents_frame ports e)).trans rfl
@[simp] theorem State.enterEvents_part : (s.enterEvents ports e).part = s.part :=
  (congrArg State.part (s.enterEvents_frame ports e)).trans rfl
@[simp] theorem State.enterEvents_engine (p : Port) :
    (s.enterEvents ports e).engine p = s.engine p :=
  (congrArg (fun z : State => z.engine p) (s.enterEvents_frame ports e)).trans rfl
@[simp] theorem State.enterEvents_session (p : Port) :
    (s.enterEvents ports e).session p = s.session p :=
  (congrArg (fun z : State => z.session p) (s.enterEvents_frame ports e)).trans rfl
@[simp] theorem State.enterEvents_cursor (p : Port) (c : SlotId) :
    (s.enterEvents ports e).cursor p c = s.cursor p c :=
  (congrArg (fun z : State => z.cursor p c) (s.enterEvents_frame ports e)).trans rfl
@[simp] theorem State.enterEvents_stack (p : Port) : (s.enterEvents ports e).stack p = s.stack p :=
  (congrArg (fun z : State => z.stack p) (s.enterEvents_frame ports e)).trans rfl
@[simp] theorem State.enterEvents_endsOf (p : Port) :
    (s.enterEvents ports e).endsOf p = s.endsOf p :=
  (congrArg (fun z : State => z.endsOf p) (s.enterEvents_frame ports e)).trans rfl
@[simp] theorem State.enterEvents_table (u : TableId) :
    (s.enterEvents ports e).table u = s.table u :=
  (congrArg (fun z : State => z.table u) (s.enterEvents_frame ports e)).trans rfl
@[simp] theorem State.enterEvents_pair (u : TableId) : (s.enterEvents ports e).pair u = s.pair u :=
  (congrArg (fun z : State => z.pair u) (s.enterEvents_frame ports e)).trans rfl
@[simp] theorem State.enterEvents_versionWord (l : List Nat) (o : Nat) :
    (s.enterEvents ports e).versionWord l o = s.versionWord l o :=
  (congrArg (fun z : State => z.versionWord l o) (s.enterEvents_frame ports e)).trans rfl
end

/-! ## tellWriter: the fields it leaves -/

section
variable (s : State) (t : TableId) (n : Nat) (e : Event)
@[simp] theorem State.tellWriter_pending : (s.tellWriter t n e).pending = s.pending :=
  (congrArg State.pending (s.tellWriter_frame t n e)).trans rfl
@[simp] theorem State.tellWriter_engines : (s.tellWriter t n e).engines = s.engines :=
  (congrArg State.engines (s.tellWriter_frame t n e)).trans rfl
@[simp] theorem State.tellWriter_sessions : (s.tellWriter t n e).sessions = s.sessions :=
  (congrArg State.sessions (s.tellWriter_frame t n e)).trans rfl
@[simp] theorem State.tellWriter_ends : (s.tellWriter t n e).ends = s.ends :=
  (congrArg State.ends (s.tellWriter_frame t n e)).trans rfl
@[simp] theorem State.tellWriter_cursors : (s.tellWriter t n e).cursors = s.cursors :=
  (congrArg State.cursors (s.tellWriter_frame t n e)).trans rfl
@[simp] theorem State.tellWriter_saveStacks : (s.tellWriter t n e).saveStacks = s.saveStacks :=
  (congrArg State.saveStacks (s.tellWriter_frame t n e)).trans rfl
@[simp] theorem State.tellWriter_mem : (s.tellWriter t n e).mem = s.mem :=
  (congrArg State.mem (s.tellWriter_frame t n e)).trans rfl
@[simp] theorem State.tellWriter_memEpoch : (s.tellWriter t n e).memEpoch = s.memEpoch :=
  (congrArg State.memEpoch (s.tellWriter_frame t n e)).trans rfl
@[simp] theorem State.tellWriter_freePool : (s.tellWriter t n e).freePool = s.freePool :=
  (congrArg State.freePool (s.tellWriter_frame t n e)).trans rfl
@[simp] theorem State.tellWriter_quarantine : (s.tellWriter t n e).quarantine = s.quarantine :=
  (congrArg State.quarantine (s.tellWriter_frame t n e)).trans rfl
@[simp] theorem State.tellWriter_arbiter : (s.tellWriter t n e).arbiter = s.arbiter :=
  (congrArg State.arbiter (s.tellWriter_frame t n e)).trans rfl
@[simp] theorem State.tellWriter_tables : (s.tellWriter t n e).tables = s.tables :=
  (congrArg State.tables (s.tellWriter_frame t n e)).trans rfl
@[simp] theorem State.tellWriter_notices : (s.tellWriter t n e).notices = s.notices :=
  (congrArg State.notices (s.tellWriter_frame t n e)).trans rfl
@[simp] theorem State.tellWriter_reports : (s.tellWriter t n e).reports = s.reports :=
  (congrArg State.reports (s.tellWriter_frame t n e)).trans rfl
@[simp] theorem State.tellWriter_workList : (s.tellWriter t n e).workList = s.workList :=
  (congrArg State.workList (s.tellWriter_frame t n e)).trans rfl
@[simp] theorem State.tellWriter_headWork : (s.tellWriter t n e).headWork = s.headWork :=
  (congrArg State.headWork (s.tellWriter_frame t n e)).trans rfl
@[simp] theorem State.tellWriter_scrub : (s.tellWriter t n e).scrub = s.scrub :=
  (congrArg State.scrub (s.tellWriter_frame t n e)).trans rfl
@[simp] theorem State.tellWriter_imageQueue : (s.tellWriter t n e).imageQueue = s.imageQueue :=
  (congrArg State.imageQueue (s.tellWriter_frame t n e)).trans rfl
@[simp] theorem State.tellWriter_imageWork : (s.tellWriter t n e).imageWork = s.imageWork :=
  (congrArg State.imageWork (s.tellWriter_frame t n e)).trans rfl
@[simp] theorem State.tellWriter_charterResults :
    (s.tellWriter t n e).charterResults = s.charterResults :=
  (congrArg State.charterResults (s.tellWriter_frame t n e)).trans rfl
@[simp] theorem State.tellWriter_store : (s.tellWriter t n e).store = s.store :=
  (congrArg State.store (s.tellWriter_frame t n e)).trans rfl
@[simp] theorem State.tellWriter_charterSlots :
    (s.tellWriter t n e).charterSlots = s.charterSlots :=
  (congrArg State.charterSlots (s.tellWriter_frame t n e)).trans rfl
@[simp] theorem State.tellWriter_supply : (s.tellWriter t n e).supply = s.supply :=
  (congrArg State.supply (s.tellWriter_frame t n e)).trans rfl
@[simp] theorem State.tellWriter_part : (s.tellWriter t n e).part = s.part :=
  (congrArg State.part (s.tellWriter_frame t n e)).trans rfl
@[simp] theorem State.tellWriter_engine (p : Port) : (s.tellWriter t n e).engine p = s.engine p :=
  (congrArg (fun z : State => z.engine p) (s.tellWriter_frame t n e)).trans rfl
@[simp] theorem State.tellWriter_session (p : Port) :
    (s.tellWriter t n e).session p = s.session p :=
  (congrArg (fun z : State => z.session p) (s.tellWriter_frame t n e)).trans rfl
@[simp] theorem State.tellWriter_cursor (p : Port) (c : SlotId) :
    (s.tellWriter t n e).cursor p c = s.cursor p c :=
  (congrArg (fun z : State => z.cursor p c) (s.tellWriter_frame t n e)).trans rfl
@[simp] theorem State.tellWriter_stack (p : Port) : (s.tellWriter t n e).stack p = s.stack p :=
  (congrArg (fun z : State => z.stack p) (s.tellWriter_frame t n e)).trans rfl
@[simp] theorem State.tellWriter_endsOf (p : Port) : (s.tellWriter t n e).endsOf p = s.endsOf p :=
  (congrArg (fun z : State => z.endsOf p) (s.tellWriter_frame t n e)).trans rfl
@[simp] theorem State.tellWriter_table (u : TableId) : (s.tellWriter t n e).table u = s.table u :=
  (congrArg (fun z : State => z.table u) (s.tellWriter_frame t n e)).trans rfl
@[simp] theorem State.tellWriter_pair (u : TableId) : (s.tellWriter t n e).pair u = s.pair u :=
  (congrArg (fun z : State => z.pair u) (s.tellWriter_frame t n e)).trans rfl
@[simp] theorem State.tellWriter_versionWord (l : List Nat) (o : Nat) :
    (s.tellWriter t n e).versionWord l o = s.versionWord l o :=
  (congrArg (fun z : State => z.versionWord l o) (s.tellWriter_frame t n e)).trans rfl
end

/-! ## releasePages: the fields it leaves -/

section
variable (s : State) (pages faulty : List Nat)
@[simp] theorem State.releasePages_pending : (s.releasePages pages faulty).pending = s.pending :=
  (congrArg State.pending (s.releasePages_frame pages faulty)).trans rfl
@[simp] theorem State.releasePages_engines : (s.releasePages pages faulty).engines = s.engines :=
  (congrArg State.engines (s.releasePages_frame pages faulty)).trans rfl
@[simp] theorem State.releasePages_sessions : (s.releasePages pages faulty).sessions = s.sessions :=
  (congrArg State.sessions (s.releasePages_frame pages faulty)).trans rfl
@[simp] theorem State.releasePages_ends : (s.releasePages pages faulty).ends = s.ends :=
  (congrArg State.ends (s.releasePages_frame pages faulty)).trans rfl
@[simp] theorem State.releasePages_events : (s.releasePages pages faulty).events = s.events :=
  (congrArg State.events (s.releasePages_frame pages faulty)).trans rfl
@[simp] theorem State.releasePages_cursors : (s.releasePages pages faulty).cursors = s.cursors :=
  (congrArg State.cursors (s.releasePages_frame pages faulty)).trans rfl
@[simp] theorem State.releasePages_saveStacks :
    (s.releasePages pages faulty).saveStacks = s.saveStacks :=
  (congrArg State.saveStacks (s.releasePages_frame pages faulty)).trans rfl
@[simp] theorem State.releasePages_mem : (s.releasePages pages faulty).mem = s.mem :=
  (congrArg State.mem (s.releasePages_frame pages faulty)).trans rfl
@[simp] theorem State.releasePages_memEpoch : (s.releasePages pages faulty).memEpoch = s.memEpoch :=
  (congrArg State.memEpoch (s.releasePages_frame pages faulty)).trans rfl
@[simp] theorem State.releasePages_arbiter : (s.releasePages pages faulty).arbiter = s.arbiter :=
  (congrArg State.arbiter (s.releasePages_frame pages faulty)).trans rfl
@[simp] theorem State.releasePages_tables : (s.releasePages pages faulty).tables = s.tables :=
  (congrArg State.tables (s.releasePages_frame pages faulty)).trans rfl
@[simp] theorem State.releasePages_notices : (s.releasePages pages faulty).notices = s.notices :=
  (congrArg State.notices (s.releasePages_frame pages faulty)).trans rfl
@[simp] theorem State.releasePages_reports : (s.releasePages pages faulty).reports = s.reports :=
  (congrArg State.reports (s.releasePages_frame pages faulty)).trans rfl
@[simp] theorem State.releasePages_workList : (s.releasePages pages faulty).workList = s.workList :=
  (congrArg State.workList (s.releasePages_frame pages faulty)).trans rfl
@[simp] theorem State.releasePages_headWork : (s.releasePages pages faulty).headWork = s.headWork :=
  (congrArg State.headWork (s.releasePages_frame pages faulty)).trans rfl
@[simp] theorem State.releasePages_scrub : (s.releasePages pages faulty).scrub = s.scrub :=
  (congrArg State.scrub (s.releasePages_frame pages faulty)).trans rfl
@[simp] theorem State.releasePages_imageQueue :
    (s.releasePages pages faulty).imageQueue = s.imageQueue :=
  (congrArg State.imageQueue (s.releasePages_frame pages faulty)).trans rfl
@[simp] theorem State.releasePages_imageWork :
    (s.releasePages pages faulty).imageWork = s.imageWork :=
  (congrArg State.imageWork (s.releasePages_frame pages faulty)).trans rfl
@[simp] theorem State.releasePages_charterResults :
    (s.releasePages pages faulty).charterResults = s.charterResults :=
  (congrArg State.charterResults (s.releasePages_frame pages faulty)).trans rfl
@[simp] theorem State.releasePages_store : (s.releasePages pages faulty).store = s.store :=
  (congrArg State.store (s.releasePages_frame pages faulty)).trans rfl
@[simp] theorem State.releasePages_charterSlots :
    (s.releasePages pages faulty).charterSlots = s.charterSlots :=
  (congrArg State.charterSlots (s.releasePages_frame pages faulty)).trans rfl
@[simp] theorem State.releasePages_supply : (s.releasePages pages faulty).supply = s.supply :=
  (congrArg State.supply (s.releasePages_frame pages faulty)).trans rfl
@[simp] theorem State.releasePages_part : (s.releasePages pages faulty).part = s.part :=
  (congrArg State.part (s.releasePages_frame pages faulty)).trans rfl
@[simp] theorem State.releasePages_engine (p : Port) :
    (s.releasePages pages faulty).engine p = s.engine p :=
  (congrArg (fun z : State => z.engine p) (s.releasePages_frame pages faulty)).trans rfl
@[simp] theorem State.releasePages_session (p : Port) :
    (s.releasePages pages faulty).session p = s.session p :=
  (congrArg (fun z : State => z.session p) (s.releasePages_frame pages faulty)).trans rfl
@[simp] theorem State.releasePages_queue (p : Port) :
    (s.releasePages pages faulty).queue p = s.queue p :=
  (congrArg (fun z : State => z.queue p) (s.releasePages_frame pages faulty)).trans rfl
@[simp] theorem State.releasePages_cursor (p : Port) (c : SlotId) :
    (s.releasePages pages faulty).cursor p c = s.cursor p c :=
  (congrArg (fun z : State => z.cursor p c) (s.releasePages_frame pages faulty)).trans rfl
@[simp] theorem State.releasePages_stack (p : Port) :
    (s.releasePages pages faulty).stack p = s.stack p :=
  (congrArg (fun z : State => z.stack p) (s.releasePages_frame pages faulty)).trans rfl
@[simp] theorem State.releasePages_endsOf (p : Port) :
    (s.releasePages pages faulty).endsOf p = s.endsOf p :=
  (congrArg (fun z : State => z.endsOf p) (s.releasePages_frame pages faulty)).trans rfl
@[simp] theorem State.releasePages_table (u : TableId) :
    (s.releasePages pages faulty).table u = s.table u :=
  (congrArg (fun z : State => z.table u) (s.releasePages_frame pages faulty)).trans rfl
@[simp] theorem State.releasePages_pair (u : TableId) :
    (s.releasePages pages faulty).pair u = s.pair u :=
  (congrArg (fun z : State => z.pair u) (s.releasePages_frame pages faulty)).trans rfl
@[simp] theorem State.releasePages_versionWord (l : List Nat) (o : Nat) :
    (s.releasePages pages faulty).versionWord l o = s.versionWord l o :=
  (congrArg (fun z : State => z.versionWord l o) (s.releasePages_frame pages faulty)).trans rfl
end

/-! ## parityReport: the fields it leaves -/

section
variable (s : State) (t : TableId) (n page : Nat)
@[simp] theorem State.parityReport_pending : (s.parityReport t n page).pending = s.pending :=
  (congrArg State.pending (s.parityReport_frame t n page)).trans rfl
@[simp] theorem State.parityReport_engines : (s.parityReport t n page).engines = s.engines :=
  (congrArg State.engines (s.parityReport_frame t n page)).trans rfl
@[simp] theorem State.parityReport_sessions : (s.parityReport t n page).sessions = s.sessions :=
  (congrArg State.sessions (s.parityReport_frame t n page)).trans rfl
@[simp] theorem State.parityReport_ends : (s.parityReport t n page).ends = s.ends :=
  (congrArg State.ends (s.parityReport_frame t n page)).trans rfl
@[simp] theorem State.parityReport_cursors : (s.parityReport t n page).cursors = s.cursors :=
  (congrArg State.cursors (s.parityReport_frame t n page)).trans rfl
@[simp] theorem State.parityReport_saveStacks :
    (s.parityReport t n page).saveStacks = s.saveStacks :=
  (congrArg State.saveStacks (s.parityReport_frame t n page)).trans rfl
@[simp] theorem State.parityReport_mem : (s.parityReport t n page).mem = s.mem :=
  (congrArg State.mem (s.parityReport_frame t n page)).trans rfl
@[simp] theorem State.parityReport_memEpoch : (s.parityReport t n page).memEpoch = s.memEpoch :=
  (congrArg State.memEpoch (s.parityReport_frame t n page)).trans rfl
@[simp] theorem State.parityReport_freePool : (s.parityReport t n page).freePool = s.freePool :=
  (congrArg State.freePool (s.parityReport_frame t n page)).trans rfl
@[simp] theorem State.parityReport_quarantine :
    (s.parityReport t n page).quarantine = s.quarantine :=
  (congrArg State.quarantine (s.parityReport_frame t n page)).trans rfl
@[simp] theorem State.parityReport_arbiter : (s.parityReport t n page).arbiter = s.arbiter :=
  (congrArg State.arbiter (s.parityReport_frame t n page)).trans rfl
@[simp] theorem State.parityReport_notices : (s.parityReport t n page).notices = s.notices :=
  (congrArg State.notices (s.parityReport_frame t n page)).trans rfl
@[simp] theorem State.parityReport_reports : (s.parityReport t n page).reports = s.reports :=
  (congrArg State.reports (s.parityReport_frame t n page)).trans rfl
@[simp] theorem State.parityReport_workList : (s.parityReport t n page).workList = s.workList :=
  (congrArg State.workList (s.parityReport_frame t n page)).trans rfl
@[simp] theorem State.parityReport_headWork : (s.parityReport t n page).headWork = s.headWork :=
  (congrArg State.headWork (s.parityReport_frame t n page)).trans rfl
@[simp] theorem State.parityReport_scrub : (s.parityReport t n page).scrub = s.scrub :=
  (congrArg State.scrub (s.parityReport_frame t n page)).trans rfl
@[simp] theorem State.parityReport_imageQueue :
    (s.parityReport t n page).imageQueue = s.imageQueue :=
  (congrArg State.imageQueue (s.parityReport_frame t n page)).trans rfl
@[simp] theorem State.parityReport_imageWork : (s.parityReport t n page).imageWork = s.imageWork :=
  (congrArg State.imageWork (s.parityReport_frame t n page)).trans rfl
@[simp] theorem State.parityReport_charterResults :
    (s.parityReport t n page).charterResults = s.charterResults :=
  (congrArg State.charterResults (s.parityReport_frame t n page)).trans rfl
@[simp] theorem State.parityReport_store : (s.parityReport t n page).store = s.store :=
  (congrArg State.store (s.parityReport_frame t n page)).trans rfl
@[simp] theorem State.parityReport_charterSlots :
    (s.parityReport t n page).charterSlots = s.charterSlots :=
  (congrArg State.charterSlots (s.parityReport_frame t n page)).trans rfl
@[simp] theorem State.parityReport_supply : (s.parityReport t n page).supply = s.supply :=
  (congrArg State.supply (s.parityReport_frame t n page)).trans rfl
@[simp] theorem State.parityReport_part : (s.parityReport t n page).part = s.part :=
  (congrArg State.part (s.parityReport_frame t n page)).trans rfl
@[simp] theorem State.parityReport_engine (p : Port) :
    (s.parityReport t n page).engine p = s.engine p :=
  (congrArg (fun z : State => z.engine p) (s.parityReport_frame t n page)).trans rfl
@[simp] theorem State.parityReport_session (p : Port) :
    (s.parityReport t n page).session p = s.session p :=
  (congrArg (fun z : State => z.session p) (s.parityReport_frame t n page)).trans rfl
@[simp] theorem State.parityReport_cursor (p : Port) (c : SlotId) :
    (s.parityReport t n page).cursor p c = s.cursor p c :=
  (congrArg (fun z : State => z.cursor p c) (s.parityReport_frame t n page)).trans rfl
@[simp] theorem State.parityReport_stack (p : Port) :
    (s.parityReport t n page).stack p = s.stack p :=
  (congrArg (fun z : State => z.stack p) (s.parityReport_frame t n page)).trans rfl
@[simp] theorem State.parityReport_endsOf (p : Port) :
    (s.parityReport t n page).endsOf p = s.endsOf p :=
  (congrArg (fun z : State => z.endsOf p) (s.parityReport_frame t n page)).trans rfl
@[simp] theorem State.parityReport_pair (u : TableId) :
    (s.parityReport t n page).pair u = s.pair u :=
  (congrArg (fun z : State => z.pair u) (s.parityReport_frame t n page)).trans rfl
@[simp] theorem State.parityReport_versionWord (l : List Nat) (o : Nat) :
    (s.parityReport t n page).versionWord l o = s.versionWord l o :=
  (congrArg (fun z : State => z.versionWord l o) (s.parityReport_frame t n page)).trans rfl
end

/-! ## unpin: the fields it leaves -/

section
variable (s : State) (t : TableId) (n : Nat)
@[simp] theorem State.unpin_pending : (s.unpin t n).pending = s.pending :=
  (congrArg State.pending (s.unpin_frame t n)).trans rfl
@[simp] theorem State.unpin_engines : (s.unpin t n).engines = s.engines :=
  (congrArg State.engines (s.unpin_frame t n)).trans rfl
@[simp] theorem State.unpin_sessions : (s.unpin t n).sessions = s.sessions :=
  (congrArg State.sessions (s.unpin_frame t n)).trans rfl
@[simp] theorem State.unpin_ends : (s.unpin t n).ends = s.ends :=
  (congrArg State.ends (s.unpin_frame t n)).trans rfl
@[simp] theorem State.unpin_cursors : (s.unpin t n).cursors = s.cursors :=
  (congrArg State.cursors (s.unpin_frame t n)).trans rfl
@[simp] theorem State.unpin_saveStacks : (s.unpin t n).saveStacks = s.saveStacks :=
  (congrArg State.saveStacks (s.unpin_frame t n)).trans rfl
@[simp] theorem State.unpin_mem : (s.unpin t n).mem = s.mem :=
  (congrArg State.mem (s.unpin_frame t n)).trans rfl
@[simp] theorem State.unpin_memEpoch : (s.unpin t n).memEpoch = s.memEpoch :=
  (congrArg State.memEpoch (s.unpin_frame t n)).trans rfl
@[simp] theorem State.unpin_arbiter : (s.unpin t n).arbiter = s.arbiter :=
  (congrArg State.arbiter (s.unpin_frame t n)).trans rfl
@[simp] theorem State.unpin_reports : (s.unpin t n).reports = s.reports :=
  (congrArg State.reports (s.unpin_frame t n)).trans rfl
@[simp] theorem State.unpin_workList : (s.unpin t n).workList = s.workList :=
  (congrArg State.workList (s.unpin_frame t n)).trans rfl
@[simp] theorem State.unpin_headWork : (s.unpin t n).headWork = s.headWork :=
  (congrArg State.headWork (s.unpin_frame t n)).trans rfl
@[simp] theorem State.unpin_scrub : (s.unpin t n).scrub = s.scrub :=
  (congrArg State.scrub (s.unpin_frame t n)).trans rfl
@[simp] theorem State.unpin_imageQueue : (s.unpin t n).imageQueue = s.imageQueue :=
  (congrArg State.imageQueue (s.unpin_frame t n)).trans rfl
@[simp] theorem State.unpin_imageWork : (s.unpin t n).imageWork = s.imageWork :=
  (congrArg State.imageWork (s.unpin_frame t n)).trans rfl
@[simp] theorem State.unpin_charterResults : (s.unpin t n).charterResults = s.charterResults :=
  (congrArg State.charterResults (s.unpin_frame t n)).trans rfl
@[simp] theorem State.unpin_store : (s.unpin t n).store = s.store :=
  (congrArg State.store (s.unpin_frame t n)).trans rfl
@[simp] theorem State.unpin_charterSlots : (s.unpin t n).charterSlots = s.charterSlots :=
  (congrArg State.charterSlots (s.unpin_frame t n)).trans rfl
@[simp] theorem State.unpin_supply : (s.unpin t n).supply = s.supply :=
  (congrArg State.supply (s.unpin_frame t n)).trans rfl
@[simp] theorem State.unpin_part : (s.unpin t n).part = s.part :=
  (congrArg State.part (s.unpin_frame t n)).trans rfl
@[simp] theorem State.unpin_engine (p : Port) : (s.unpin t n).engine p = s.engine p :=
  (congrArg (fun z : State => z.engine p) (s.unpin_frame t n)).trans rfl
@[simp] theorem State.unpin_session (p : Port) : (s.unpin t n).session p = s.session p :=
  (congrArg (fun z : State => z.session p) (s.unpin_frame t n)).trans rfl
@[simp] theorem State.unpin_cursor (p : Port) (c : SlotId) :
    (s.unpin t n).cursor p c = s.cursor p c :=
  (congrArg (fun z : State => z.cursor p c) (s.unpin_frame t n)).trans rfl
@[simp] theorem State.unpin_stack (p : Port) : (s.unpin t n).stack p = s.stack p :=
  (congrArg (fun z : State => z.stack p) (s.unpin_frame t n)).trans rfl
@[simp] theorem State.unpin_endsOf (p : Port) : (s.unpin t n).endsOf p = s.endsOf p :=
  (congrArg (fun z : State => z.endsOf p) (s.unpin_frame t n)).trans rfl
@[simp] theorem State.unpin_pair (u : TableId) : (s.unpin t n).pair u = s.pair u :=
  (congrArg (fun z : State => z.pair u) (s.unpin_frame t n)).trans rfl
@[simp] theorem State.unpin_versionWord (l : List Nat) (o : Nat) :
    (s.unpin t n).versionWord l o = s.versionWord l o :=
  (congrArg (fun z : State => z.versionWord l o) (s.unpin_frame t n)).trans rfl
end

/-! ## releaseStaged: the fields it leaves -/

section
variable (s : State) (t : TableId)
@[simp] theorem State.releaseStaged_pending : (s.releaseStaged t).pending = s.pending :=
  (congrArg State.pending (s.releaseStaged_frame t)).trans rfl
@[simp] theorem State.releaseStaged_engines : (s.releaseStaged t).engines = s.engines :=
  (congrArg State.engines (s.releaseStaged_frame t)).trans rfl
@[simp] theorem State.releaseStaged_sessions : (s.releaseStaged t).sessions = s.sessions :=
  (congrArg State.sessions (s.releaseStaged_frame t)).trans rfl
@[simp] theorem State.releaseStaged_ends : (s.releaseStaged t).ends = s.ends :=
  (congrArg State.ends (s.releaseStaged_frame t)).trans rfl
@[simp] theorem State.releaseStaged_cursors : (s.releaseStaged t).cursors = s.cursors :=
  (congrArg State.cursors (s.releaseStaged_frame t)).trans rfl
@[simp] theorem State.releaseStaged_saveStacks : (s.releaseStaged t).saveStacks = s.saveStacks :=
  (congrArg State.saveStacks (s.releaseStaged_frame t)).trans rfl
@[simp] theorem State.releaseStaged_mem : (s.releaseStaged t).mem = s.mem :=
  (congrArg State.mem (s.releaseStaged_frame t)).trans rfl
@[simp] theorem State.releaseStaged_memEpoch : (s.releaseStaged t).memEpoch = s.memEpoch :=
  (congrArg State.memEpoch (s.releaseStaged_frame t)).trans rfl
@[simp] theorem State.releaseStaged_arbiter : (s.releaseStaged t).arbiter = s.arbiter :=
  (congrArg State.arbiter (s.releaseStaged_frame t)).trans rfl
@[simp] theorem State.releaseStaged_reports : (s.releaseStaged t).reports = s.reports :=
  (congrArg State.reports (s.releaseStaged_frame t)).trans rfl
@[simp] theorem State.releaseStaged_workList : (s.releaseStaged t).workList = s.workList :=
  (congrArg State.workList (s.releaseStaged_frame t)).trans rfl
@[simp] theorem State.releaseStaged_headWork : (s.releaseStaged t).headWork = s.headWork :=
  (congrArg State.headWork (s.releaseStaged_frame t)).trans rfl
@[simp] theorem State.releaseStaged_scrub : (s.releaseStaged t).scrub = s.scrub :=
  (congrArg State.scrub (s.releaseStaged_frame t)).trans rfl
@[simp] theorem State.releaseStaged_imageQueue : (s.releaseStaged t).imageQueue = s.imageQueue :=
  (congrArg State.imageQueue (s.releaseStaged_frame t)).trans rfl
@[simp] theorem State.releaseStaged_imageWork : (s.releaseStaged t).imageWork = s.imageWork :=
  (congrArg State.imageWork (s.releaseStaged_frame t)).trans rfl
@[simp] theorem State.releaseStaged_charterResults :
    (s.releaseStaged t).charterResults = s.charterResults :=
  (congrArg State.charterResults (s.releaseStaged_frame t)).trans rfl
@[simp] theorem State.releaseStaged_store : (s.releaseStaged t).store = s.store :=
  (congrArg State.store (s.releaseStaged_frame t)).trans rfl
@[simp] theorem State.releaseStaged_charterSlots :
    (s.releaseStaged t).charterSlots = s.charterSlots :=
  (congrArg State.charterSlots (s.releaseStaged_frame t)).trans rfl
@[simp] theorem State.releaseStaged_supply : (s.releaseStaged t).supply = s.supply :=
  (congrArg State.supply (s.releaseStaged_frame t)).trans rfl
@[simp] theorem State.releaseStaged_part : (s.releaseStaged t).part = s.part :=
  (congrArg State.part (s.releaseStaged_frame t)).trans rfl
@[simp] theorem State.releaseStaged_engine (p : Port) : (s.releaseStaged t).engine p = s.engine p :=
  (congrArg (fun z : State => z.engine p) (s.releaseStaged_frame t)).trans rfl
@[simp] theorem State.releaseStaged_session (p : Port) :
    (s.releaseStaged t).session p = s.session p :=
  (congrArg (fun z : State => z.session p) (s.releaseStaged_frame t)).trans rfl
@[simp] theorem State.releaseStaged_cursor (p : Port) (c : SlotId) :
    (s.releaseStaged t).cursor p c = s.cursor p c :=
  (congrArg (fun z : State => z.cursor p c) (s.releaseStaged_frame t)).trans rfl
@[simp] theorem State.releaseStaged_stack (p : Port) : (s.releaseStaged t).stack p = s.stack p :=
  (congrArg (fun z : State => z.stack p) (s.releaseStaged_frame t)).trans rfl
@[simp] theorem State.releaseStaged_endsOf (p : Port) : (s.releaseStaged t).endsOf p = s.endsOf p :=
  (congrArg (fun z : State => z.endsOf p) (s.releaseStaged_frame t)).trans rfl
@[simp] theorem State.releaseStaged_pair (u : TableId) : (s.releaseStaged t).pair u = s.pair u :=
  (congrArg (fun z : State => z.pair u) (s.releaseStaged_frame t)).trans rfl
@[simp] theorem State.releaseStaged_versionWord (l : List Nat) (o : Nat) :
    (s.releaseStaged t).versionWord l o = s.versionWord l o :=
  (congrArg (fun z : State => z.versionWord l o) (s.releaseStaged_frame t)).trans rfl
end

/-! ## swap: the fields it leaves -/

section
variable (s : State) (t : TableId)
@[simp] theorem State.swap_pending : (s.swap t).pending = s.pending :=
  (congrArg State.pending (s.swap_frame t)).trans rfl
@[simp] theorem State.swap_engines : (s.swap t).engines = s.engines :=
  (congrArg State.engines (s.swap_frame t)).trans rfl
@[simp] theorem State.swap_sessions : (s.swap t).sessions = s.sessions :=
  (congrArg State.sessions (s.swap_frame t)).trans rfl
@[simp] theorem State.swap_ends : (s.swap t).ends = s.ends :=
  (congrArg State.ends (s.swap_frame t)).trans rfl
@[simp] theorem State.swap_cursors : (s.swap t).cursors = s.cursors :=
  (congrArg State.cursors (s.swap_frame t)).trans rfl
@[simp] theorem State.swap_saveStacks : (s.swap t).saveStacks = s.saveStacks :=
  (congrArg State.saveStacks (s.swap_frame t)).trans rfl
@[simp] theorem State.swap_mem : (s.swap t).mem = s.mem :=
  (congrArg State.mem (s.swap_frame t)).trans rfl
@[simp] theorem State.swap_memEpoch : (s.swap t).memEpoch = s.memEpoch :=
  (congrArg State.memEpoch (s.swap_frame t)).trans rfl
@[simp] theorem State.swap_arbiter : (s.swap t).arbiter = s.arbiter :=
  (congrArg State.arbiter (s.swap_frame t)).trans rfl
@[simp] theorem State.swap_reports : (s.swap t).reports = s.reports :=
  (congrArg State.reports (s.swap_frame t)).trans rfl
@[simp] theorem State.swap_workList : (s.swap t).workList = s.workList :=
  (congrArg State.workList (s.swap_frame t)).trans rfl
@[simp] theorem State.swap_headWork : (s.swap t).headWork = s.headWork :=
  (congrArg State.headWork (s.swap_frame t)).trans rfl
@[simp] theorem State.swap_scrub : (s.swap t).scrub = s.scrub :=
  (congrArg State.scrub (s.swap_frame t)).trans rfl
@[simp] theorem State.swap_imageQueue : (s.swap t).imageQueue = s.imageQueue :=
  (congrArg State.imageQueue (s.swap_frame t)).trans rfl
@[simp] theorem State.swap_imageWork : (s.swap t).imageWork = s.imageWork :=
  (congrArg State.imageWork (s.swap_frame t)).trans rfl
@[simp] theorem State.swap_charterResults : (s.swap t).charterResults = s.charterResults :=
  (congrArg State.charterResults (s.swap_frame t)).trans rfl
@[simp] theorem State.swap_store : (s.swap t).store = s.store :=
  (congrArg State.store (s.swap_frame t)).trans rfl
@[simp] theorem State.swap_charterSlots : (s.swap t).charterSlots = s.charterSlots :=
  (congrArg State.charterSlots (s.swap_frame t)).trans rfl
@[simp] theorem State.swap_supply : (s.swap t).supply = s.supply :=
  (congrArg State.supply (s.swap_frame t)).trans rfl
@[simp] theorem State.swap_part : (s.swap t).part = s.part :=
  (congrArg State.part (s.swap_frame t)).trans rfl
@[simp] theorem State.swap_engine (p : Port) : (s.swap t).engine p = s.engine p :=
  (congrArg (fun z : State => z.engine p) (s.swap_frame t)).trans rfl
@[simp] theorem State.swap_session (p : Port) : (s.swap t).session p = s.session p :=
  (congrArg (fun z : State => z.session p) (s.swap_frame t)).trans rfl
@[simp] theorem State.swap_cursor (p : Port) (c : SlotId) : (s.swap t).cursor p c = s.cursor p c :=
  (congrArg (fun z : State => z.cursor p c) (s.swap_frame t)).trans rfl
@[simp] theorem State.swap_stack (p : Port) : (s.swap t).stack p = s.stack p :=
  (congrArg (fun z : State => z.stack p) (s.swap_frame t)).trans rfl
@[simp] theorem State.swap_endsOf (p : Port) : (s.swap t).endsOf p = s.endsOf p :=
  (congrArg (fun z : State => z.endsOf p) (s.swap_frame t)).trans rfl
@[simp] theorem State.swap_pair (u : TableId) : (s.swap t).pair u = s.pair u :=
  (congrArg (fun z : State => z.pair u) (s.swap_frame t)).trans rfl
@[simp] theorem State.swap_versionWord (l : List Nat) (o : Nat) :
    (s.swap t).versionWord l o = s.versionWord l o :=
  (congrArg (fun z : State => z.versionWord l o) (s.swap_frame t)).trans rfl
end

/-! ## What a report and an unpin do, case by case -/

/-- DAMAGE entered for the readers and the writer of a record's table where the version's flag was
clear (R36). -/
def State.damageTold (s : State) (r : TableRecord) (t : TableId) (v : Version) (n : Nat) : State :=
  if v.damage = .clear then
    s.enterEvents r.entry.audience
      { kind := .damage, table := some t, version := n, result := .parity, extra := 0 }
  else s

theorem State.parityReport_current {s : State} {t : TableId} {n : Nat} (page : Nat) {v : Version}
    (hv : (s.table t).current = some v) (hn : v.number = n) :
    s.parityReport t n page
      = (s.setTable t { s.table t with current := some (v.markParity page) }).damageTold
          (s.table t) t v n := by
  by_cases hd : v.damage = .clear <;>
    simp [State.parityReport, State.damageTold, State.enterDamage, hv, hn, hd]

theorem State.parityReport_retiring {s : State} {t : TableId} {n : Nat} (page : Nat) {v : Version}
    (hc : ∀ w, (s.table t).current = some w → w.number ≠ n) (hv : (s.table t).retiring = some v)
    (hn : v.number = n) :
    s.parityReport t n page
      = (s.setTable t { s.table t with retiring := some (v.markParity page) }).damageTold
          (s.table t) t v n := by
  cases hw : (s.table t).current with
  | none =>
    by_cases hd : v.damage = .clear <;>
      simp [State.parityReport, State.damageTold, State.enterDamage, hw, hv, hn, hd]
  | some w =>
    by_cases hd : v.damage = .clear <;>
      simp [State.parityReport, State.damageTold, State.enterDamage, hw, hc w hw, hv, hn, hd]

theorem State.parityReport_staged {s : State} {t : TableId} {n : Nat} (page : Nat) {st : Staged}
    (hc : ∀ w, (s.table t).current = some w → w.number ≠ n)
    (hr : ∀ w, (s.table t).retiring = some w → w.number ≠ n)
    (hs : (s.table t).staged = some st) (hn : st.version.number = n) :
    s.parityReport t n page
      = (s.setTable t { s.table t with
            staged := some { st with version := st.version.markParity page } }).damageTold
          (s.table t) t st.version n := by
  cases hw : (s.table t).current <;> cases hx : (s.table t).retiring <;>
    by_cases hd : st.version.damage = .clear <;>
    simp_all [State.parityReport, State.damageTold, State.enterDamage]

theorem State.parityReport_absent {s : State} {t : TableId} {n : Nat} (page : Nat)
    (hc : ∀ w, (s.table t).current = some w → w.number ≠ n)
    (hr : ∀ w, (s.table t).retiring = some w → w.number ≠ n)
    (hs : ∀ st, (s.table t).staged = some st → st.version.number ≠ n) :
    s.parityReport t n page = s := by
  cases hw : (s.table t).current <;> cases hx : (s.table t).retiring <;>
    cases hy : (s.table t).staged <;> simp_all [State.parityReport]

theorem State.checkReport_current {s : State} {t : TableId} {n : Nat} {v : Version}
    (hv : (s.table t).current = some v) (hn : v.number = n) (hd : v.damage = .clear) :
    s.checkReport t n
      = (s.setTable t { s.table t with current := some { v with damage := .check } }).enterEvents
          (s.table t).entry.audience
          { kind := .damage, table := some t, version := n, result := .check, extra := 0 } := by
  simp [State.checkReport, State.enterDamage, hv, hn, hd]

theorem State.checkReport_absent {s : State} {t : TableId} {n : Nat}
    (h : ∀ v, (s.table t).current = some v → v.number = n → v.damage ≠ .clear) :
    s.checkReport t n = s := by
  unfold State.checkReport
  split
  · rename_i v hv
    exact if_neg (fun hh => h v hv hh.1 hh.2)
  · rfl

theorem State.unpin_current {s : State} {t : TableId} {n : Nat} {v : Version}
    (hv : (s.table t).current = some v) (hn : v.number = n) :
    s.unpin t n = s.setTable t { s.table t with current := some v.unpin } := by
  simp [State.unpin, hv, hn]

theorem State.unpin_retiring {s : State} {t : TableId} {n : Nat} {w : Version}
    (hc : ∀ v, (s.table t).current = some v → v.number ≠ n) (hw : (s.table t).retiring = some w)
    (hn : w.number = n) :
    s.unpin t n =
      if w.unpin.pins = 0 then
        (s.setTable t { s.table t with retiring := some w.unpin }).retire t
      else s.setTable t { s.table t with retiring := some w.unpin } := by
  cases hv : (s.table t).current with
  | none => simp [State.unpin, hv, hw, hn]
  | some v => simp [State.unpin, hv, hc v hv, hw, hn]

theorem State.unpin_absent {s : State} {t : TableId} {n : Nat}
    (hc : ∀ v, (s.table t).current = some v → v.number ≠ n)
    (hr : ∀ w, (s.table t).retiring = some w → w.number ≠ n) : s.unpin t n = s := by
  cases hv : (s.table t).current <;> cases hw : (s.table t).retiring <;>
    simp_all [State.unpin]

/-- Retirement of a table's RETIRING version (R27). -/
theorem State.retire_some {s : State} {t : TableId} {v : Version}
    (h : (s.table t).retiring = some v) :
    s.retire t =
      let freed := (s.releasePages v.pages v.faulty).setTable t { s.table t with retiring := none }
      let told := match (s.table t).entry.writer with
        | some p => freed.enterEvent p none
            { kind := .retired, table := some t, version := v.number, result := .ok, extra := 0 }
        | none => freed
      if (s.table t).stagedHeld then { told with notices := told.notices ++ [t] } else told := by
  cases hw : (s.table t).entry.writer <;> simp only [State.retire, h, hw]

/-! ## What retirement, unpin and release leave in table records -/

theorem State.retire_table_self (s : State) (t : TableId) :
    (s.retire t).table t = { s.table t with retiring := none } := by
  cases h : (s.table t).retiring with
  | none =>
    have h1 : s.retire t = s := by simp [State.retire, h]
    rw [h1, ← h]
  | some v =>
    have h1 : ((s.releasePages v.pages v.faulty).setTable t
        { s.table t with retiring := none }).table t = { s.table t with retiring := none } := by simp
    rw [State.retire_some h]
    dsimp only
    cases (s.table t).entry.writer <;> cases (s.table t).stagedHeld
    · exact h1
    · exact h1
    · exact (State.enterEvent_table ..).trans h1
    · exact (State.enterEvent_table ..).trans h1

theorem State.retire_table_other (s : State) {t u : TableId} (hu : u ≠ t) :
    (s.retire t).table u = s.table u := by
  cases h : (s.table t).retiring with
  | none => simp [State.retire, h]
  | some v =>
    have h1 : ((s.releasePages v.pages v.faulty).setTable t
        { s.table t with retiring := none }).table u = s.table u := by
      simp [State.table_setTable_other _ _ _ hu]
    rw [State.retire_some h]
    dsimp only
    cases (s.table t).entry.writer <;> cases (s.table t).stagedHeld
    · exact h1
    · exact h1
    · exact (State.enterEvent_table ..).trans h1
    · exact (State.enterEvent_table ..).trans h1

/-- A record with one pin less on the version of this number; a RETIRING version whose last pin goes is
gone. -/
def TableRecord.unpinned (r : TableRecord) (n : Nat) : TableRecord :=
  let retiringCase : TableRecord :=
    match r.retiring with
    | some w =>
      if w.number = n then
        { r with retiring := if w.unpin.pins = 0 then none else some w.unpin }
      else r
    | none => r
  match r.current with
  | some v => if v.number = n then { r with current := some v.unpin } else retiringCase
  | none => retiringCase

theorem State.unpin_table_self (s : State) (t : TableId) (n : Nat) :
    (s.unpin t n).table t = (s.table t).unpinned n := by
  cases hc : (s.table t).current <;> cases hr : (s.table t).retiring
  · simp [State.unpin, TableRecord.unpinned, hc, hr]
  · rename_i w
    by_cases hw : w.number = n <;> by_cases h0 : w.unpin.pins = 0 <;>
      simp [State.unpin, TableRecord.unpinned, hc, hr, hw, h0, State.retire_table_self]
  · rename_i v
    by_cases hv : v.number = n <;> simp [State.unpin, TableRecord.unpinned, hc, hr, hv]
  · rename_i v w
    by_cases hv : v.number = n <;> by_cases hw : w.number = n <;>
      by_cases h0 : w.unpin.pins = 0 <;>
      simp [State.unpin, TableRecord.unpinned, hc, hr, hv, hw, h0, State.retire_table_self]

theorem State.unpin_table_other (s : State) {t u : TableId} (n : Nat) (hu : u ≠ t) :
    (s.unpin t n).table u = s.table u := by
  unfold State.unpin
  cases (s.table t).current <;> cases (s.table t).retiring <;> dsimp only <;>
    repeat' split
  all_goals first
    | rfl
    | exact State.table_setTable_other _ _ _ hu
    | exact (State.retire_table_other _ hu).trans (State.table_setTable_other _ _ _ hu)

theorem TableRecord.unpinned_staged (r : TableRecord) (n : Nat) :
    (r.unpinned n).staged = r.staged := by
  unfold TableRecord.unpinned
  dsimp only
  repeat' split
  all_goals rfl

theorem TableRecord.unpinned_entry (r : TableRecord) (n : Nat) :
    (r.unpinned n).entry = r.entry := by
  unfold TableRecord.unpinned
  dsimp only
  repeat' split
  all_goals rfl

theorem State.releaseStaged_table_self (s : State) (t : TableId) :
    (s.releaseStaged t).table t = { s.table t with staged := none } := by
  unfold State.releaseStaged
  split
  · simp
  · rename_i h
    rw [← h]

theorem State.releaseStaged_table_other (s : State) {t u : TableId} (hu : u ≠ t) :
    (s.releaseStaged t).table u = s.table u := by
  unfold State.releaseStaged
  split
  · simp [State.table_setTable_other _ _ _ hu]
  · rfl

/-! ## Lookups -/

theorem State.lookup_number {s : State} {t : TableId} {n : Nat} {v : Version} {isCurrent : Bool}
    (h : s.lookup t n = some (v, isCurrent)) : v.number = n := by
  unfold State.lookup TableRecord.lookup at h
  repeat' split at h
  all_goals first
    | (simp at h; done)
    | (simp only [Option.some.injEq, Prod.mk.injEq] at h; obtain ⟨rfl, _⟩ := h; assumption)

theorem State.lookup_isCurrent {s : State} {t : TableId} {n : Nat} {v : Version}
    (h : s.lookup t n = some (v, true)) : (s.table t).current = some v := by
  unfold State.lookup TableRecord.lookup at h
  repeat' split at h
  all_goals first
    | (simp at h; done)
    | (simp only [Option.some.injEq, Prod.mk.injEq] at h; obtain ⟨rfl, _⟩ := h; assumption)

theorem State.lookup_retiring {s : State} {t : TableId} {n : Nat} {v : Version}
    (h : s.lookup t n = some (v, false)) : (s.table t).retiring = some v
      ∧ ∀ w, (s.table t).current = some w → w.number ≠ n := by
  unfold State.lookup TableRecord.lookup at h
  repeat' split at h
  all_goals first
    | (simp at h; done)
    | (simp only [Option.some.injEq, Prod.mk.injEq] at h; obtain ⟨rfl, _⟩ := h; simp_all)

/-- A parity report on a version that a slot holds: it is found again, its page in the faulty set. -/
theorem State.lookup_parityReport {s : State} {t : TableId} {n : Nat} {v : Version} {isCurrent : Bool}
    (page : Nat) (h : s.lookup t n = some (v, isCurrent)) :
    (s.parityReport t n page).lookup t n = some (v.markParity page, isCurrent) := by
  have hn := State.lookup_number h
  have hl : ∀ (x : State), x.lookup t n = (x.table t).lookup n := fun _ => rfl
  have hm : (v.markParity page).number = n := hn
  have ht : ∀ (x : State) (r : TableRecord), (x.damageTold r t v n).table t = x.table t := by
    intro x r
    unfold State.damageTold
    split <;> simp
  cases isCurrent with
  | true =>
    have hc := State.lookup_isCurrent h
    rw [State.parityReport_current page hc hn, hl, ht]
    simp [TableRecord.lookup, hm]
  | false =>
    obtain ⟨hr, hc⟩ := State.lookup_retiring h
    rw [State.parityReport_retiring page hc hr hn, hl, ht]
    cases hw : (s.table t).current with
    | none => simp [TableRecord.lookup, hm, hw]
    | some w => simp [TableRecord.lookup, hm, hw, hc w hw]

end Sys2Proof.Machine
end

