-- ==== Sys2Proof/Laws/Memory.lean ====
section
/-! SUPPORT. Table memory: what a write leaves to read, that every memory operation keeps the canonical
form, and the parity of a stored word. -/

namespace Sys2Proof.Machine

/-! ## Stored words -/

/-- A write stores an odd number of ones (R2). -/
theorem oddOnes_storedOf (w : Word) : oddOnes (storedOf w) = true := by
  have h : ∀ i, i < 16 → (storedOf w).getLsbD i = w.getLsbD i := by
    intro i hi
    simp [storedOf, BitVec.getLsbD_cons, Nat.ne_of_lt hi]
  have h16 : (storedOf w).getLsbD 16 = !wordOddOnes w := by
    unfold storedOf
    rw [BitVec.getLsbD_cons]
    simp
  have hr : List.range 17 = List.range 16 ++ [16] := rfl
  have hf : ∀ (l : List Nat) (a : Bool), (∀ i ∈ l, i < 16) →
      l.foldl (fun acc i => acc ^^ (storedOf w).getLsbD i) a
        = l.foldl (fun acc i => acc ^^ w.getLsbD i) a := by
    intro l
    induction l with
    | nil => intro a _; rfl
    | cons i l ih =>
      intro a hl
      simp only [List.foldl_cons]
      rw [h i (hl i (by simp)), ih _ (fun j hj => hl j (by simp [hj]))]
  unfold oddOnes
  rw [hr, List.foldl_append, hf _ _ (fun i hi => List.mem_range.mp hi)]
  simp only [List.foldl_cons, List.foldl_nil, h16]
  unfold wordOddOnes
  simp

/-- A read gives the value that was written (R2, R3). -/
theorem valueOf_storedOf (w : Word) : valueOf (storedOf w) = w := by
  apply BitVec.eq_of_getLsbD_eq
  intro i hi
  simp [valueOf, storedOf, hi]

/-! ## The list form -/

theorem Memory.read_write_self (m : Memory) (k : Nat) (c : Stored) :
    Memory.read (Memory.write m k c) k = some c := by
  induction m with
  | nil => simp [Memory.write, Memory.read]
  | cons x rest ih =>
    obtain ⟨a, d⟩ := x
    unfold Memory.write
    split
    · simp [Memory.read]
    · split
      · simp [Memory.read]
      · rename_i h1 h2
        simp only [Memory.read]
        rw [if_neg (by omega)]
        exact ih

theorem Memory.read_write_other (m : Memory) {k j : Nat} (c : Stored) (h : j ≠ k) :
    Memory.read (Memory.write m k c) j = Memory.read m j := by
  induction m with
  | nil => simp [Memory.write, Memory.read, Ne.symm h]
  | cons x rest ih =>
    obtain ⟨a, d⟩ := x
    unfold Memory.write
    split
    · simp [Memory.read, Ne.symm h]
    · split
      · rename_i h1 h2
        subst h2
        simp [Memory.read, Ne.symm h]
      · simp only [Memory.read]
        split
        · rfl
        · exact ih

theorem Memory.mem_write {m : Memory} {k : Nat} {c : Stored} {x : Nat × Stored}
    (h : x ∈ Memory.write m k c) : x.1 = k ∨ x ∈ m := by
  induction m with
  | nil => simp [Memory.write] at h; simp [h]
  | cons y rest ih =>
    obtain ⟨a, d⟩ := y
    unfold Memory.write at h
    split at h
    · rcases List.mem_cons.mp h with h | h
      · exact Or.inl (by rw [h])
      · exact Or.inr h
    · split at h
      · rcases List.mem_cons.mp h with h | h
        · exact Or.inl (by rw [h])
        · exact Or.inr (List.mem_cons_of_mem _ h)
      · rcases List.mem_cons.mp h with h | h
        · exact Or.inr (by simp [h])
        · rcases ih h with h | h
          · exact Or.inl h
          · exact Or.inr (List.mem_cons_of_mem _ h)

/-- A write keeps the canonical form. -/
theorem Memory.wf_write {m : Memory} {k : Nat} (c : Stored) (h : Memory.wf m)
    (hk : k < Config.pageCount * Config.pageWords) : Memory.wf (Memory.write m k c) := by
  obtain ⟨ho, hb⟩ := h
  refine ⟨?_, ?_⟩
  · clear hb
    induction m with
    | nil => simp [Memory.write]
    | cons y rest ih =>
      obtain ⟨a, d⟩ := y
      simp only [List.map_cons, List.pairwise_cons] at ho
      unfold Memory.write
      split
      · rename_i hka
        simp only [List.map_cons, List.pairwise_cons]
        refine ⟨?_, ho.1, ho.2⟩
        intro b hb
        rcases List.mem_cons.mp hb with hb | hb
        · omega
        · have := ho.1 b hb
          omega
      · split
        · rename_i h1 h2
          subst h2
          simp only [List.map_cons, List.pairwise_cons]
          exact ⟨ho.1, ho.2⟩
        · rename_i h1 h2
          simp only [List.map_cons, List.pairwise_cons]
          refine ⟨?_, ih ho.2⟩
          intro b hb
          obtain ⟨x, hx, rfl⟩ := List.mem_map.mp hb
          rcases Memory.mem_write hx with hx | hx
          · omega
          · exact ho.1 _ (List.mem_map_of_mem hx)
  · intro x hx
    rcases Memory.mem_write hx with hx | hx
    · omega
    · exact hb x hx

/-- Every address of a version lies in table memory (R1). -/
theorem wordAddress_lt {pages : List Nat} {offset a : Nat} (h : wordAddress pages offset = some a) :
    a < Config.pageCount * Config.pageWords := by
  unfold wordAddress at h
  split at h
  · rename_i page _
    split at h
    · rename_i hp
      have hm := Nat.mod_lt offset (show 0 < Config.pageWords by decide)
      obtain rfl : page * Config.pageWords + offset % Config.pageWords = a := by simpa using h
      have h1 : (page + 1) * Config.pageWords ≤ Config.pageCount * Config.pageWords :=
        Nat.mul_le_mul_right _ hp
      rw [Nat.add_mul] at h1
      omega
    · simp at h
  · simp at h

/-! ## The waiting requestors and the arbiter -/

theorem Requestor.mem_ring (r : Requestor) : r ∈ arbiterRing := by
  cases r with
  | portEngine p => revert p; decide
  | staging => decide
  | imageStore => decide

/-- The waiting list holds the requestors that wait. -/
theorem State.mem_waiting (s : State) (r : Requestor) : r ∈ s.waiting ↔ s.waits r = true := by
  simp [State.waiting, Requestor.mem_ring]

theorem arbiterScan_congr {l m : List Requestor} (h : ∀ r, r ∈ l ↔ r ∈ m) (n : Nat) :
    ∀ r, arbiterScan l n r = arbiterScan m n r := by
  induction n with
  | zero => intro r; rfl
  | succ n ih =>
    intro r
    by_cases hr : r ∈ m
    · simp [arbiterScan, hr, (h r).mpr hr]
    · simp [arbiterScan, hr, mt (h r).mp hr, ih]

/-- The arbiter's choice depends on who waits, not on how often or in which order that is said. -/
theorem arbiterSelect_congr {l m : List Requestor} (h : ∀ r, r ∈ l ↔ r ∈ m) (a : Requestor) :
    arbiterSelect a l = arbiterSelect a m := arbiterScan_congr h _ _

/-- A requestor that waits alone is selected. -/
theorem arbiterSelect_alone (a r : Requestor) : arbiterSelect a [r] = some r := by
  rcases a with p | _ | _ <;> rcases r with q | _ | _
  all_goals first
    | decide
    | (revert p q; decide)
    | (revert p; decide)
    | (revert q; decide)

/-- A requestor beside which no other waits is granted. -/
theorem State.grants_alone {s : State} {r : Requestor} (h : ∀ q ∈ s.waiting, q = r) :
    s.grants r = true := by
  have hc : ∀ q, q ∈ r :: s.waiting ↔ q ∈ [r] := by
    intro q
    constructor
    · intro hq
      rcases List.mem_cons.mp hq with hq | hq
      · simp [hq]
      · simp [h q hq]
    · intro hq
      simp at hq
      simp [hq]
  simp [State.grants, arbiterSelect_congr hc, arbiterSelect_alone]

theorem State.grants_idle {s : State} (r : Requestor) (h : s.waiting = []) : s.grants r = true :=
  State.grants_alone (by simp [h])

/-- Who waits depends on the turns of the requests in progress, the open sessions, the work list, the
STAGED versions and the image store's work only. -/
theorem State.waits_congr {s t : State} (h1 : ∀ p, t.turn p = s.turn p)
    (h2 : ∀ p, (t.session p).isOpen = (s.session p).isOpen) (h3 : t.workList = s.workList)
    (h4 : ∀ u, (t.table u).staged = (s.table u).staged) (h5 : t.imageWork = s.imageWork)
    (r : Requestor) : t.waits r = s.waits r := by
  cases r with
  | portEngine p => simp [State.waits, State.readWaits, h1, h2]
  | staging => simp [State.waits, State.writeWaits, State.headWaits, h1, h2, h3, h4]
  | imageStore => simp [State.waits, State.imageWaits, h5]

theorem State.waiting_congr {s t : State} (h : ∀ r, t.waits r = s.waits r) :
    t.waiting = s.waiting := by
  unfold State.waiting
  rw [funext h]

/-- Two states whose waiting requestors but r, and whose pointers, agree grant r alike. -/
theorem State.grants_congr {s t : State} {r : Requestor} (ha : t.arbiter = s.arbiter)
    (h : ∀ q, q ≠ r → t.waits q = s.waits q) : t.grants r = s.grants r := by
  have hc : ∀ q, q ∈ r :: t.waiting ↔ q ∈ r :: s.waiting := by
    intro q
    by_cases hq : q = r
    · simp [hq]
    · simp [State.mem_waiting, h q hq, hq]
  simp [State.grants, ha, arbiterSelect_congr hc]

/-! ## Grants -/

/-- One granted write: the arbiter's pointer moves, the word is stored, nothing else changes. -/
theorem State.writeGranted_eq (s : State) (r : Requestor) (pages : List Nat) (offset : Nat) (w : Word) :
    s.writeGranted r pages offset w =
      { s with
        arbiter := r.next
        mem := match wordAddress pages offset with
          | some a => Memory.write s.mem a (storedOf w)
          | none => s.mem } := by
  unfold State.writeGranted
  rw [State.grant_eq]
  split <;> simp_all

/-- One granted read: the arbiter's pointer moves; the word and its parity are those stored. -/
theorem State.readGranted_eq (s : State) (r : Requestor) (pages : List Nat) (offset : Nat) :
    s.readGranted r pages offset
      = ({ s with arbiter := r.next }, valueOf (s.versionWord pages offset),
          oddOnes (s.versionWord pages offset)) := by
  simp [State.readGranted, State.grant_eq]

theorem State.wf_writeGranted (s : State) (r : Requestor) (pages : List Nat) (offset : Nat) (w : Word)
    (h : Memory.wf s.mem) : Memory.wf (s.writeGranted r pages offset w).mem := by
  rw [State.writeGranted_eq]
  dsimp only
  split
  · rename_i a ha
    exact Memory.wf_write _ h (wordAddress_lt ha)
  · exact h

/-- Consecutive writes change the arbiter's pointer and table memory only. -/
theorem State.writeWords_frame (s : State) (r : Requestor) (pages : List Nat) (offset : Nat)
    (ws : List Word) :
    s.writeWords r pages offset ws =
      { s with
        arbiter := if ws = [] then s.arbiter else r.next
        mem := (s.writeWords r pages offset ws).mem } := by
  induction ws generalizing s offset with
  | nil => rfl
  | cons w ws ih =>
    unfold State.writeWords
    rw [ih, State.writeGranted_eq]
    simp

theorem State.wf_writeWords (s : State) (r : Requestor) (pages : List Nat) (offset : Nat)
    (ws : List Word) (h : Memory.wf s.mem) : Memory.wf (s.writeWords r pages offset ws).mem := by
  induction ws generalizing s offset with
  | nil => exact h
  | cons w ws ih => exact ih _ _ (State.wf_writeGranted _ _ _ _ _ h)

/-- Consecutive writes leave every address they do not name. -/
theorem State.writeWords_other (s : State) (r : Requestor) (pages : List Nat) (offset : Nat)
    (ws : List Word) {a : Nat}
    (h : ∀ i, i < ws.length → wordAddress pages (offset + i) ≠ some a) :
    Memory.read (s.writeWords r pages offset ws).mem a = Memory.read s.mem a := by
  induction ws generalizing s offset with
  | nil => rfl
  | cons w ws ih =>
    unfold State.writeWords
    rw [ih _ _ (fun i hi => by
      have := h (i + 1) (by simpa using hi)
      rwa [Nat.add_assoc, Nat.add_comm 1 i])]
    rw [State.writeGranted_eq]
    dsimp only
    have h0 := h 0 (by simp)
    rw [Nat.add_zero] at h0
    split
    · rename_i b hb
      exact Memory.read_write_other _ _ (fun e => h0 (by rw [hb, e]))
    · rfl

/-- Different offsets of one version lie at different addresses, where no page stands twice in its
list (R1). -/
theorem wordAddress_inj {pages : List Nat} {i j a : Nat} (hn : pages.Nodup)
    (hi : wordAddress pages i = some a) (hj : wordAddress pages j = some a) : i = j := by
  obtain ⟨x, hx, hi⟩ : ∃ x, pages[i / 256]? = some x ∧ x * 256 + i % 256 = a := by
    unfold wordAddress at hi
    split at hi
    · rename_i x hx
      split at hi
      · exact ⟨x, hx, by simpa [Config.pageWords] using hi⟩
      · simp at hi
    · simp at hi
  obtain ⟨y, hy, hj⟩ : ∃ y, pages[j / 256]? = some y ∧ y * 256 + j % 256 = a := by
    unfold wordAddress at hj
    split at hj
    · rename_i y hy
      split at hj
      · exact ⟨y, hy, by simpa [Config.pageWords] using hj⟩
      · simp at hj
    · simp at hj
  have hmi := Nat.mod_lt i (show 0 < 256 by decide)
  have hmj := Nat.mod_lt j (show 0 < 256 by decide)
  have hxy : x = y := by omega
  subst hxy
  have hd : i / 256 = j / 256 := by
    obtain ⟨h1, h2⟩ := List.getElem?_eq_some_iff.mp hx
    obtain ⟨h3, h4⟩ := List.getElem?_eq_some_iff.mp hy
    exact (List.Nodup.getElem_inj_iff hn).mp (h2.trans h4.symm)
  omega

/-- Consecutive writes: each offset holds its word, with an odd number of ones. -/
theorem State.writeWords_self (s : State) (r : Requestor) (pages : List Nat) (offset : Nat)
    (ws : List Word) (hn : pages.Nodup) {i a : Nat} {w : Word} (hw : ws[i]? = some w)
    (ha : wordAddress pages (offset + i) = some a) :
    Memory.read (s.writeWords r pages offset ws).mem a = some (storedOf w) := by
  induction ws generalizing s offset i with
  | nil => simp at hw
  | cons v ws ih =>
    unfold State.writeWords
    cases i with
    | zero =>
      simp at hw
      subst hw
      rw [Nat.add_zero] at ha
      rw [State.writeWords_other]
      · rw [State.writeGranted_eq]
        simp only [ha]
        exact Memory.read_write_self _ _ _
      · intro j _ hj
        have := wordAddress_inj hn ha hj
        omega
    | succ i =>
      refine ih _ _ (by simpa using hw) ?_
      rwa [Nat.add_assoc, Nat.add_comm 1 i]

end Sys2Proof.Machine
end

