-- ==== Sys2Proof/Laws/Requests.lean ====
section
/-! SUPPORT. What serving a request does: the gate, the lease, and the response; and the values the
operand forms give. -/

namespace Sys2Proof.Machine

/-! ## Operands -/

theorem slotOperand_val {b : Byte} {c : SlotId} (h : b.toNat = c.val) : slotOperand b = some c := by
  have h1 := c.isLt
  simp [slotOperand, h]

theorem tableOperand_val {b : Byte} {t : TableId} (h : b.toNat = t.val) :
    tableOperand b = some t := by
  have h1 := t.isLt
  simp [tableOperand, h]

theorem tableOperand_none {b : Byte} (h : 31 < b.toNat) : tableOperand b = none := by
  have h1 : ¬ b.toNat < 32 := by omega
  simp [tableOperand, h1]

theorem offsetOperand_val {w : Word} (h : w.toNat ≤ 4095) : offsetOperand w = some w.toNat := by
  simp [offsetOperand, h]

theorem countOperand_val {b : Byte} (h1 : 1 ≤ b.toNat) (h2 : b.toNat ≤ 16) :
    countOperand b = some b.toNat := by
  simp [countOperand, h1, h2]

theorem eventCountOperand_val {b : Byte} (h1 : 1 ≤ b.toNat) (h2 : b.toNat ≤ 4) :
    eventCountOperand b = some b.toNat := by
  simp [eventCountOperand, h1, h2]

theorem eventCountOperand_none {b : Byte} (h : b.toNat = 0 ∨ 4 < b.toNat) :
    eventCountOperand b = none := by
  have h1 : ¬ (1 ≤ b.toNat ∧ b.toNat ≤ 4) := by omega
  simp [eventCountOperand, h1]

theorem strideOperand_val {b : Byte} (h1 : -16 ≤ b.toInt) (h2 : b.toInt ≤ 16) (h3 : b.toInt ≠ 0) :
    strideOperand b = some b.toInt := by
  unfold strideOperand
  rw [if_pos ⟨h1, h2, h3⟩]

@[simp] theorem modeOperand_code (m : Mode) : modeOperand m.code = some m := by
  cases m <;> decide

@[simp] theorem yesNoOperand_boolByte (f : Bool) : yesNoOperand (boolByte f) = some f := by
  cases f <;> decide

/-! ## Lists of the wire -/

@[simp] theorem bytesOfWord_ofNat_toNat (w : Word) : wordBytes w.toNat = bytesOfWord w := by
  simp [wordBytes]

theorem wordBytes_length (n : Nat) : (wordBytes n).length = 2 := rfl

/-! ## Serving a request -/

theorem State.requestTag_asks {s : State} {p : Port} {req : Request} {tag : Byte} {turn : Turn}
    (h : s.asksAt p req tag turn) (hr : s.part.state ≠ .reset) : s.requestTag p req = some tag := by
  unfold State.asksAt at h
  simp [State.requestTag, hr, h]

theorem State.turn_asks {s : State} {p : Port} {req : Request} {tag : Byte} {turn : Turn}
    (h : s.asksAt p req tag turn) : s.turn p = turn := State.turn_of_inProgress h

/-- A request the gate refuses: only the response changes. -/
theorem State.serve_refused {s : State} {p : Port} {req : Request} {tag : Byte} {turn : Turn}
    {st : Status} (owner : Owner) (h : s.asksAt p req tag turn) (hr : s.part.state ≠ .reset)
    (hg : s.gate p req = some st) : s.serve p req owner = s.respond p tag (refuse st) := by
  simp [State.serve, State.requestTag_asks h hr, hg]

/-- A request past the gate. -/
theorem State.serve_passed {s : State} {p : Port} {req : Request} {tag : Byte} {turn : Turn}
    (owner : Owner) (h : s.asksAt p req tag turn) (hr : s.part.state ≠ .reset) (hg : s.gate p req = none) :
    s.serve p req owner = s.passGate p tag owner := by
  simp [State.serve, State.requestTag_asks h hr, hg]

/-- A request that is not in progress does nothing. -/
theorem State.serve_other {s : State} {p : Port} {req : Request} (owner : Owner)
    (h : s.requestTag p req = none) : s.serve p req owner = s := by
  simp [State.serve, h]

theorem State.gate_admits {s : State} {p : Port} (req : Request) (h : s.admits p) :
    s.gate p req = none := by
  obtain ⟨_, hl, ho⟩ := h
  cases req <;> simp [State.gate, hl, ho]

theorem State.restartLease_open {s : State} {p : Port} (h : (s.session p).isOpen = true) :
    s.restartLease p = s.leaseRenewed p := by
  simp [State.restartLease, State.leaseRenewed, h]

theorem State.restartLease_closed {s : State} {p : Port} (h : (s.session p).isOpen = false) :
    s.restartLease p = s := by
  simp [State.restartLease, h]

/-- The request of an open session, past the gate: the owner works on the state with the lease
restarted, and its answer is placed in the buffer. -/
theorem State.serve_admitted {s t : State} {p : Port} {req : Request} {tag : Byte} {turn : Turn}
    {r : Reply} {owner : Owner} (h : s.asksAt p req tag turn) (ha : s.admits p)
    (hw : owner (s.leaseRenewed p) = (t, some r)) :
    s.serve p req owner = t.respond p tag r := by
  rw [State.serve_passed owner h ha.1 (State.gate_admits req ha)]
  simp [State.passGate, State.restartLease_open ha.2.2, hw]

/-- As State.serve_admitted, where the owner does not answer yet. -/
theorem State.serve_waits {s t : State} {p : Port} {req : Request} {tag : Byte} {turn : Turn}
    {owner : Owner} (h : s.asksAt p req tag turn) (ha : s.admits p)
    (hw : owner (s.leaseRenewed p) = (t, none)) : s.serve p req owner = t := by
  rw [State.serve_passed owner h ha.1 (State.gate_admits req ha)]
  simp [State.passGate, State.restartLease_open ha.2.2, hw]

theorem outsideMaintenance_out {s : State} (work : State × Option Reply)
    (h : s.part.state ≠ .maintenance) : outsideMaintenance s work = work := by
  simp [outsideMaintenance, h]

theorem outsideMaintenance_in {s : State} (work : State × Option Reply)
    (h : s.part.state = .maintenance) : outsideMaintenance s work = refusing s .maintenance := by
  simp [outsideMaintenance, h]

theorem withBound_some {s : State} {p : Port} {c : SlotId} {b : Binding}
    (work : Binding → State × Option Reply) (h : s.cursor p c = some b) :
    withBound s p c work = work b := by
  simp [withBound, h]

/-! ## The lease renewed -/

section
variable (s : State) (p : Port)
@[simp] theorem State.leaseRenewed_pending : (s.leaseRenewed p).pending = s.pending := rfl
@[simp] theorem State.leaseRenewed_engines : (s.leaseRenewed p).engines = s.engines := rfl
@[simp] theorem State.leaseRenewed_ends : (s.leaseRenewed p).ends = s.ends := rfl
@[simp] theorem State.leaseRenewed_events : (s.leaseRenewed p).events = s.events := rfl
@[simp] theorem State.leaseRenewed_cursors : (s.leaseRenewed p).cursors = s.cursors := rfl
@[simp] theorem State.leaseRenewed_saveStacks : (s.leaseRenewed p).saveStacks = s.saveStacks := rfl
@[simp] theorem State.leaseRenewed_mem : (s.leaseRenewed p).mem = s.mem := rfl
@[simp] theorem State.leaseRenewed_memEpoch : (s.leaseRenewed p).memEpoch = s.memEpoch := rfl
@[simp] theorem State.leaseRenewed_freePool : (s.leaseRenewed p).freePool = s.freePool := rfl
@[simp] theorem State.leaseRenewed_quarantine : (s.leaseRenewed p).quarantine = s.quarantine := rfl
@[simp] theorem State.leaseRenewed_arbiter : (s.leaseRenewed p).arbiter = s.arbiter := rfl
@[simp] theorem State.leaseRenewed_tables : (s.leaseRenewed p).tables = s.tables := rfl
@[simp] theorem State.leaseRenewed_notices : (s.leaseRenewed p).notices = s.notices := rfl
@[simp] theorem State.leaseRenewed_reports : (s.leaseRenewed p).reports = s.reports := rfl
@[simp] theorem State.leaseRenewed_workList : (s.leaseRenewed p).workList = s.workList := rfl
@[simp] theorem State.leaseRenewed_headWork : (s.leaseRenewed p).headWork = s.headWork := rfl
@[simp] theorem State.leaseRenewed_scrub : (s.leaseRenewed p).scrub = s.scrub := rfl
@[simp] theorem State.leaseRenewed_imageQueue : (s.leaseRenewed p).imageQueue = s.imageQueue := rfl
@[simp] theorem State.leaseRenewed_imageWork : (s.leaseRenewed p).imageWork = s.imageWork := rfl
@[simp] theorem State.leaseRenewed_charterResults :
    (s.leaseRenewed p).charterResults = s.charterResults := rfl
@[simp] theorem State.leaseRenewed_store : (s.leaseRenewed p).store = s.store := rfl
@[simp] theorem State.leaseRenewed_charterSlots :
    (s.leaseRenewed p).charterSlots = s.charterSlots := rfl
@[simp] theorem State.leaseRenewed_supply : (s.leaseRenewed p).supply = s.supply := rfl
@[simp] theorem State.leaseRenewed_part : (s.leaseRenewed p).part = s.part := rfl
@[simp] theorem State.leaseRenewed_engine (q : Port) :
    (s.leaseRenewed p).engine q = s.engine q := rfl
@[simp] theorem State.leaseRenewed_queue (q : Port) : (s.leaseRenewed p).queue q = s.queue q := rfl
@[simp] theorem State.leaseRenewed_cursor (q : Port) (c : SlotId) :
    (s.leaseRenewed p).cursor q c = s.cursor q c := rfl
@[simp] theorem State.leaseRenewed_stack (q : Port) : (s.leaseRenewed p).stack q = s.stack q := rfl
@[simp] theorem State.leaseRenewed_endsOf (q : Port) :
    (s.leaseRenewed p).endsOf q = s.endsOf q := rfl
@[simp] theorem State.leaseRenewed_table (t : TableId) :
    (s.leaseRenewed p).table t = s.table t := rfl
@[simp] theorem State.leaseRenewed_pair (t : TableId) : (s.leaseRenewed p).pair t = s.pair t := rfl
@[simp] theorem State.leaseRenewed_lookup (t : TableId) (n : Nat) :
    (s.leaseRenewed p).lookup t n = s.lookup t n := rfl
@[simp] theorem State.leaseRenewed_versionWord (pages : List Nat) (o : Nat) :
    (s.leaseRenewed p).versionWord pages o = s.versionWord pages o := rfl
end

/-- Renewing the lease keeps every session field of the port but the timer. -/
theorem State.leaseRenewed_session (s : State) (p : Port) :
    (s.leaseRenewed p).session p
      = { s.session p with leaseTimer := some (s.session p).leasePeriod } := by
  simp [State.leaseRenewed]

theorem State.leaseRenewed_session_other (s : State) {p q : Port} (h : q ≠ p) :
    (s.leaseRenewed p).session q = s.session q :=
  State.session_setSession_other _ _ _ h

@[simp] theorem State.leaseRenewed_number (s : State) (p q : Port) :
    ((s.leaseRenewed p).session q).number = (s.session q).number := by
  by_cases h : q = p
  · subst h; simp [State.leaseRenewed_session]
  · rw [State.leaseRenewed_session_other s h]

@[simp] theorem State.leaseRenewed_isOpen (s : State) (p q : Port) :
    ((s.leaseRenewed p).session q).isOpen = (s.session q).isOpen := by
  by_cases h : q = p
  · subst h; simp [State.leaseRenewed_session]
  · rw [State.leaseRenewed_session_other s h]

/-! ## The response placed -/

section
variable (s : State) (p : Port) (tag : Byte) (r : Reply)
@[simp] theorem State.respond_pending : (s.respond p tag r).pending = s.pending := rfl
@[simp] theorem State.respond_sessions : (s.respond p tag r).sessions = s.sessions := rfl
@[simp] theorem State.respond_ends : (s.respond p tag r).ends = s.ends := rfl
@[simp] theorem State.respond_events : (s.respond p tag r).events = s.events := rfl
@[simp] theorem State.respond_cursors : (s.respond p tag r).cursors = s.cursors := rfl
@[simp] theorem State.respond_saveStacks : (s.respond p tag r).saveStacks = s.saveStacks := rfl
@[simp] theorem State.respond_mem : (s.respond p tag r).mem = s.mem := rfl
@[simp] theorem State.respond_memEpoch : (s.respond p tag r).memEpoch = s.memEpoch := rfl
@[simp] theorem State.respond_freePool : (s.respond p tag r).freePool = s.freePool := rfl
@[simp] theorem State.respond_quarantine : (s.respond p tag r).quarantine = s.quarantine := rfl
@[simp] theorem State.respond_arbiter : (s.respond p tag r).arbiter = s.arbiter := rfl
@[simp] theorem State.respond_tables : (s.respond p tag r).tables = s.tables := rfl
@[simp] theorem State.respond_notices : (s.respond p tag r).notices = s.notices := rfl
@[simp] theorem State.respond_reports : (s.respond p tag r).reports = s.reports := rfl
@[simp] theorem State.respond_workList : (s.respond p tag r).workList = s.workList := rfl
@[simp] theorem State.respond_headWork : (s.respond p tag r).headWork = s.headWork := rfl
@[simp] theorem State.respond_scrub : (s.respond p tag r).scrub = s.scrub := rfl
@[simp] theorem State.respond_imageQueue : (s.respond p tag r).imageQueue = s.imageQueue := rfl
@[simp] theorem State.respond_imageWork : (s.respond p tag r).imageWork = s.imageWork := rfl
@[simp] theorem State.respond_charterResults :
    (s.respond p tag r).charterResults = s.charterResults := rfl
@[simp] theorem State.respond_store : (s.respond p tag r).store = s.store := rfl
@[simp] theorem State.respond_charterSlots : (s.respond p tag r).charterSlots = s.charterSlots := rfl
@[simp] theorem State.respond_supply : (s.respond p tag r).supply = s.supply := rfl
@[simp] theorem State.respond_part : (s.respond p tag r).part = s.part := rfl
@[simp] theorem State.respond_session (q : Port) :
    (s.respond p tag r).session q = s.session q := rfl
@[simp] theorem State.respond_queue (q : Port) : (s.respond p tag r).queue q = s.queue q := rfl
@[simp] theorem State.respond_cursor (q : Port) (c : SlotId) :
    (s.respond p tag r).cursor q c = s.cursor q c := rfl
@[simp] theorem State.respond_stack (q : Port) : (s.respond p tag r).stack q = s.stack q := rfl
@[simp] theorem State.respond_endsOf (q : Port) : (s.respond p tag r).endsOf q = s.endsOf q := rfl
@[simp] theorem State.respond_table (t : TableId) : (s.respond p tag r).table t = s.table t := rfl
@[simp] theorem State.respond_pair (t : TableId) : (s.respond p tag r).pair t = s.pair t := rfl
@[simp] theorem State.respond_lookup (t : TableId) (n : Nat) :
    (s.respond p tag r).lookup t n = s.lookup t n := rfl
end

/-- What stands in the engine of the port answered. -/
theorem State.respond_engine (s : State) (p : Port) (tag : Byte) (r : Reply) :
    (s.respond p tag r).engine p
      = { s.engine p with
          buffer := { tag := tag, status := r.status, flags := r.flags, data := r.data }
          inProgress := none } := by
  simp [State.respond]

end Sys2Proof.Machine
end

