-- ==== Sys2Proof/Laws/Arbiter.lean ====
section
/-! SUPPORT. The memory arbiter: its choice by places after the pointer, and who waits (R15);
and a request in its turns. -/

namespace Sys2Proof.Machine

theorem Requestor.placesAfter_self (a : Requestor) : a.placesAfter a = 0 := by
  rcases a with a | _ | _
  · revert a
    decide
  all_goals decide

theorem Requestor.placesAfter_lt (a q : Requestor) : q.placesAfter a < arbiterRing.length :=
  Nat.mod_lt _ (by decide)

/-- Any two requestors stand at different places. -/
theorem Requestor.placesAfter_inj (a r q : Requestor) (h : r.placesAfter a = q.placesAfter a) :
    r = q := by
  rcases a with a | _ | _ <;> rcases r with r | _ | _ <;> rcases q with q | _ | _
  all_goals first
    | (revert h; decide)
    | (revert a r q h; decide)
    | (revert a r h; decide)
    | (revert a q h; decide)
    | (revert r q h; decide)
    | (revert a h; decide)
    | (revert r h; decide)
    | (revert q h; decide)

/-- The next requestor of the ring is one place nearer to every other. -/
theorem Requestor.placesAfter_next (a q : Requestor) (h : q ≠ a) :
    q.placesAfter a = q.placesAfter a.next + 1 := by
  rcases a with a | _ | _ <;> rcases q with q | _ | _
  all_goals first
    | (revert h; decide)
    | (revert a q h; decide)
    | (revert a h; decide)
    | (revert q h; decide)

/-- The requestor granted is the last from the pointer that its grant leaves. -/
theorem Requestor.placesAfter_granted (r q : Requestor) (h : q ≠ r) :
    q.placesAfter r.next < r.placesAfter r.next := by
  rcases r with r | _ | _ <;> rcases q with q | _ | _
  all_goals first
    | (revert h; decide)
    | (revert r q h; decide)
    | (revert r h; decide)
    | (revert q h; decide)

/-- The scan stops at the first waiting requestor. -/
theorem arbiterScan_iff (l : List Requestor) (r : Requestor) (hr : r ∈ l) (n : Nat) :
    ∀ a, r.placesAfter a < n →
      (arbiterScan l n a = some r ↔ ∀ q ∈ l, r.placesAfter a ≤ q.placesAfter a) := by
  induction n with
  | zero =>
    intro a h
    omega
  | succ n ih =>
    intro a h
    unfold arbiterScan
    split
    · rename_i ha
      simp only [Option.some.injEq]
      constructor
      · rintro rfl q _
        rw [Requestor.placesAfter_self]
        omega
      · intro hq
        have h0 := hq a ha
        rw [Requestor.placesAfter_self] at h0
        exact Requestor.placesAfter_inj a _ _ (by rw [Requestor.placesAfter_self]; omega)
    · rename_i ha
      have hra := Requestor.placesAfter_next a r (fun e => ha (e ▸ hr))
      rw [ih a.next (by omega)]
      constructor
      · intro hq q hql
        have h1 := hq q hql
        have h2 := Requestor.placesAfter_next a q (fun e => ha (e ▸ hql))
        omega
      · intro hq q hql
        have h1 := hq q hql
        have h2 := Requestor.placesAfter_next a q (fun e => ha (e ▸ hql))
        omega

/-- R15: r is granted when no requestor that waits stands nearer to the pointer. -/
theorem State.grants_iff (s : State) (r : Requestor) :
    s.grants r = true ↔
      ∀ q, s.waits q = true → r.placesAfter s.arbiter ≤ q.placesAfter s.arbiter := by
  have h1 : s.grants r = true
      ↔ arbiterScan (r :: s.waiting) arbiterRing.length s.arbiter = some r := by
    unfold State.grants arbiterSelect
    exact decide_eq_true_iff
  refine h1.trans ((arbiterScan_iff (r :: s.waiting) r (List.mem_cons_self ..) _ _
    (Requestor.placesAfter_lt _ _)).trans ?_)
  constructor
  · intro h q hq
    exact h q (List.mem_cons_of_mem _ ((State.mem_waiting s q).mpr hq))
  · intro h q hq
    rcases List.mem_cons.mp hq with rfl | hq
    · exact le_refl _
    · exact h q ((State.mem_waiting s q).mp hq)

/-- After a grant to r, r is not granted again while another requestor waits. -/
theorem State.not_grants_again {s : State} {r q : Requestor} (ha : s.arbiter = r.next)
    (hq : q ≠ r) (hw : s.waits q = true) : s.grants r = false := by
  rw [← Bool.not_eq_true, State.grants_iff, ha]
  intro h
  have h1 := h q hw
  have h2 := Requestor.placesAfter_granted r q hq
  omega

theorem State.waits_portEngine (s : State) (p : Port) :
    s.waits (.portEngine p) = true ↔
      (s.session p).isOpen = true ∧ ∃ job, s.turn p = .reading job := by
  simp only [State.waits, State.readWaits]
  cases s.turn p <;> simp

theorem State.waits_imageStore (s : State) :
    s.waits .imageStore = true ↔
      (∃ job offset, s.imageWork = .persistProgramming job offset)
        ∨ ∃ job, s.imageWork = .reading job := by
  simp only [State.waits, State.imageWaits]
  cases s.imageWork <;> simp

theorem State.writeWaits_iff (s : State) :
    s.writeWaits = true ↔ ∃ p job, (s.session p).isOpen = true ∧ s.turn p = .writing job := by
  simp only [State.writeWaits, List.any_eq_true]
  constructor
  · rintro ⟨p, _, h⟩
    cases ht : s.turn p <;> simp [ht] at h
    exact ⟨p, _, h, ht⟩
  · rintro ⟨p, job, h, ht⟩
    exact ⟨p, by fin_cases p <;> simp [allPorts], by simp [ht, h]⟩

/-- When a BIND stands at its pin on a version (R28, R44). -/
theorem State.bindStands_iff (s : State) (t : TableId) (n : Nat) :
    s.bindStands t n = true ↔ ∃ q d x length damaged, s.turn q = .pinned d x length damaged
      ∧ x.table = t ∧ x.version = n := by
  simp only [State.bindStands, List.any_eq_true]
  constructor
  · rintro ⟨q, _, h⟩
    cases hq : s.turn q <;> simp [hq] at h
    exact ⟨q, _, _, _, _, hq, h⟩
  · rintro ⟨q, d, x, length, damaged, hq, ht, hn⟩
    exact ⟨q, by fin_cases q <;> simp [allPorts], by simp [hq, ht, hn]⟩

theorem SubState.listed_iff (sub : SubState) :
    sub.listed = true ↔ (∃ k, sub = .filling k ∧ k ≠ .store) ∨ ∃ n, sub = .summing n := by
  rcases sub with k | _ | n | n
  · cases k <;> simp [SubState.listed]
  all_goals simp [SubState.listed]

theorem State.headWaits_iff (s : State) :
    s.headWaits = true ↔
      ∃ t rest st, s.workList = t :: rest ∧ (s.table t).staged = some st
        ∧ ((∃ k, st.sub = .filling k ∧ k ≠ .store) ∨ ∃ n, st.sub = .summing n) := by
  unfold State.headWaits
  cases hw : s.workList with
  | nil => simp
  | cons t rest =>
    simp only [Option.any_eq_true, SubState.listed_iff]
    constructor
    · rintro ⟨st, hst, h⟩
      exact ⟨t, rest, st, rfl, hst, h⟩
    · rintro ⟨t', rest', st, e, hst, h⟩
      cases e
      exact ⟨st, hst, h⟩

theorem State.waits_staging (s : State) :
    s.waits .staging = true ↔ s.writeWaits = true ∨ s.headWaits = true := by
  simp [State.waits]

/-! ## A request in its turns -/

@[simp] theorem State.leaseRenewed_waits (s : State) (p : Port) (r : Requestor) :
    (s.leaseRenewed p).waits r = s.waits r :=
  State.waits_congr (s := s) (t := s.leaseRenewed p) (fun _ => rfl)
    (fun q => s.leaseRenewed_isOpen p q) rfl (fun _ => rfl) rfl r

@[simp] theorem State.leaseRenewed_waiting (s : State) (p : Port) :
    (s.leaseRenewed p).waiting = s.waiting := State.waiting_congr (s.leaseRenewed_waits p)

@[simp] theorem State.leaseRenewed_grants (s : State) (p : Port) (r : Requestor) :
    (s.leaseRenewed p).grants r = s.grants r :=
  State.grants_congr rfl (fun q _ => s.leaseRenewed_waits p q)

@[simp] theorem State.leaseRenewed_writeWaits (s : State) (p : Port) :
    (s.leaseRenewed p).writeWaits = s.writeWaits := by
  have ht : ∀ q, (s.leaseRenewed p).turn q = s.turn q := fun _ => rfl
  simp [State.writeWaits, ht]

/-- A lease renewed twice is renewed. -/
@[simp] theorem State.leaseRenewed_leaseRenewed (s : State) (p : Port) :
    (s.leaseRenewed p).leaseRenewed p = s.leaseRenewed p := by
  simp [State.leaseRenewed]

/-- A request put at another place waits elsewhere for itself only: p's engine, or the staging engine for
a WRITE. -/
theorem State.waits_setTurn (s : State) (p : Port) (turn : Turn) {r : Requestor}
    (h : r ≠ .portEngine p) (hs : r ≠ .staging) : (s.setTurn p turn).waits r = s.waits r := by
  rcases r with q | _ | _
  · have hq : q ≠ p := fun e => h (by rw [e])
    have hi : ((s.setTurn p turn).session q).isOpen = (s.session q).isOpen := rfl
    simp [State.waits, State.readWaits, State.turn_setTurn_ne s turn hq, hi]
  · exact absurd rfl hs
  · rfl

/-- The turn a request in progress takes. -/
theorem State.turn_setTurn_self {s : State} {p : Port} {job : InProgress} (turn : Turn)
    (h : (s.engine p).inProgress = some job) : (s.setTurn p turn).turn p = turn := by
  simp [State.turn, State.setTurn, h]

/-- A request put where it stands. -/
theorem State.setTurn_stay {s : State} {p : Port} {req : Request} {tag : Byte} {turn : Turn}
    (h : s.asksAt p req tag turn) : s.setTurn p turn = s := by
  have h1 : (s.engine p).inProgress = some { tag := tag, request := req, turn := turn } := h
  rw [State.setTurn_of_inProgress turn h1]
  have h2 : { s.engine p with
      inProgress := some { tag := tag, request := req, turn := turn } } = s.engine p := by
    rw [← h1]
  simp only [h2]
  simp

/-- The answer to a request does not depend on where the request stood. -/
@[simp] theorem State.respond_setTurn (s : State) (p : Port) (turn : Turn) (tag : Byte) (r : Reply) :
    (s.setTurn p turn).respond p tag r = s.respond p tag r := by
  simp [State.respond, State.setTurn]

end Sys2Proof.Machine
end

