-- ==== Sys2Proof/Laws/Cursors.lean ====
section
/-! SUPPORT. Slots and reads: what fixing a version and reading its words do. -/

namespace Sys2Proof.Machine

theorem State.damagedNow_of_lookup {s : State} {t : TableId} {n : Nat} {v : Version}
    {isCurrent : Bool} (h : s.lookup t n = some (v, isCurrent)) : s.damagedNow t n = v.damaged := by
  simp [State.damagedNow, h]

theorem State.setCursor_stay {s : State} {p : Port} {c : SlotId} {b : Binding}
    (h : s.cursor p c = some b) : s.setCursor p c (some b) = s := by
  rw [← h]
  exact State.setCursor_same _ _ _

/-- A slot that no rebind moves: the version is the one it holds, and nothing changes (R41, R51). -/
theorem State.fixVersion_stays {s : State} {p : Port} {c : SlotId} {b : Binding} {v : Version}
    {isCurrent : Bool} (hb : s.cursor p c = some b)
    (hl : s.lookup b.table b.version = some (v, isCurrent))
    (hf : b.follow = true → isCurrent = true) :
    s.fixVersion p c b = some (s, b, v, isCurrent, false) := by
  unfold State.fixVersion
  split
  · rename_i hfo
    have hc := hf hfo
    subst hc
    have hn := State.lookup_number hl
    simp [State.rebind, State.lookup_isCurrent hl, hn, Binding.moveTo, State.setCursor_stay hb]
  · simp [hl]

/-- A FOLLOW slot on another version than the CURRENT one is moved (R51). -/
theorem State.fixVersion_moves {s : State} {p : Port} {c : SlotId} {b : Binding} {v : Version}
    (hv : (s.table b.table).current = some v) (hf : b.follow = true) (hn : v.number ≠ b.version) :
    s.fixVersion p c b =
      some (((s.setTable b.table { s.table b.table with current := some v.pin }).unpin b.table
        b.version).setCursor p c (some (b.moveTo v)), b.moveTo v, v, true, true) := by
  simp [State.fixVersion, hf, State.rebind, hv, hn]

/-- The offsets of a FETCH with the first one taken off. -/
theorem fetchOffsets_step {b : Binding} {length n : Nat} (h : b.atEnd length = false) :
    fetchOffsets b length (n + 1)
      = b.offset :: fetchOffsets { b with offset := b.mode.step b.offset b.stride length } length n := by
  simp [fetchOffsets, h]

theorem fetchEnd_step {b : Binding} {length n : Nat} (h : b.atEnd length = false) :
    fetchEnd b length (n + 1)
      = fetchEnd { b with offset := b.mode.step b.offset b.stride length } length n := by
  simp [fetchEnd, h]

/-! ## The words of a read -/

/-- A state that differs from s in the arbiter's pointer and a slot only has the same requestors
waiting. -/
theorem State.waiting_read (s : State) (a : Requestor) (p : Port) (c : SlotId) (x : Context) :
    (({ s with arbiter := a } : State).setCursor p c x).waiting = s.waiting := rfl

/-- A FETCH whose every word reads well, beside which no other requestor waits: the words in order, the
slot at the next offset, and one move of the arbiter's pointer (R53). -/
theorem State.readWords_fetch_sound (p : Port) (c : SlotId) (n : Nat) :
    ∀ (s : State) (b : Binding) (job : ReadJob), job.left = n → job.walk = .fetch c →
      s.cursor p c = some b → s.waiting = [] → s.soundAt job.pages (fetchOffsets b job.length n) →
      State.readWords p n s job =
        ({ s.setCursor p c (some { b with offset := fetchEnd b job.length n }) with
            arbiter := if fetchOffsets b job.length n = [] then s.arbiter
              else Requestor.next (.portEngine p) },
          { job with
            words := job.words ++ s.wordsAt job.pages (fetchOffsets b job.length n)
            left := job.left - (fetchOffsets b job.length n).length }, .complete) := by
  induction n with
  | zero =>
    intro s b job hn _ hb _ _
    have he : s.readEnded p job = true := by simp [State.readEnded, hn]
    simp [State.readWords, he, fetchOffsets, fetchEnd, State.wordsAt, State.setCursor_stay hb]
  | succ n ih =>
    intro s b job hn hj hb hw h
    cases he : b.atEnd job.length with
    | true =>
      have hno : s.nextOffset p job = none := by simp [State.nextOffset, hj, hb, he]
      simp [State.readWords, hno, fetchOffsets, fetchEnd, State.wordsAt, he,
        State.setCursor_stay hb]
    | false =>
      rw [fetchOffsets_step he] at h ⊢
      rw [fetchEnd_step he]
      have hno : s.nextOffset p job = some b.offset := by simp [State.nextOffset, hj, hb, he]
      have hst : (({ s with arbiter := (Requestor.portEngine p).next } : State)).stepSlot p job
          = ({ s with arbiter := (Requestor.portEngine p).next } : State).setCursor p c
            (some { b with offset := b.mode.step b.offset b.stride job.length }) := by
        have hb' : ({ s with arbiter := (Requestor.portEngine p).next } : State).cursor p c
            = some b := hb
        simp only [State.stepSlot, hj, hb']
      simp only [State.readWords, hno, State.grants_idle _ hw, State.readGranted_eq,
        h b.offset (by simp), hst]
      rw [if_pos trivial, if_pos trivial]
      rw [ih (({ s with arbiter := (Requestor.portEngine p).next } : State).setCursor p c
          (some { b with offset := b.mode.step b.offset b.stride job.length }))
        { b with offset := b.mode.step b.offset b.stride job.length }
        (job.took (valueOf (s.versionWord job.pages b.offset))) (by simp [ReadJob.took, hn]) hj
        (State.cursor_setCursor_self _ _ _ _) (by rw [State.waiting_read]; exact hw)
        (fun o ho => h o (List.mem_cons_of_mem _ ho))]
      simp only [ReadJob.took, State.wordsAt, List.map_cons, State.setCursor_setCursor,
        List.append_assoc, List.cons_append, List.nil_append, List.length_cons]
      refine Prod.ext ?_ (Prod.ext ?_ rfl)
      · simp only [State.setCursor]
        simp
        exact ite_self _
      · simp only [ReadJob.mk.injEq, true_and]
        exact ⟨rfl, by omega⟩

/-- A FETCH that meets a parity error stops there: the words before it, the slot at the faulty word,
and the page reported (R57). -/
theorem State.readWords_fetch_stops (p : Port) (c : SlotId) (n : Nat) :
    ∀ (s : State) (b : Binding) (job : ReadJob) (before later : List Nat) (o : Nat),
      job.walk = .fetch c → s.cursor p c = some b → s.waiting = [] →
      fetchOffsets b job.length n = before ++ o :: later → s.soundAt job.pages before →
      oddOnes (s.versionWord job.pages o) = false →
      State.readWords p n s job =
        (({ s.setCursor p c (some { b with offset := o }) with
            arbiter := Requestor.next (.portEngine p) } : State).parityReport job.table job.number
              (o / Config.pageWords),
          { job with
            words := job.words ++ s.wordsAt job.pages before, left := job.left - before.length },
          .parity) := by
  induction n with
  | zero =>
    intro s b job before later o _ _ _ h
    simp [fetchOffsets] at h
  | succ n ih =>
    intro s b job before later o hj hb hw h hg hbad
    cases he : b.atEnd job.length with
    | true => simp [fetchOffsets, he] at h
    | false =>
      rw [fetchOffsets_step he] at h
      have hno : s.nextOffset p job = some b.offset := by simp [State.nextOffset, hj, hb, he]
      simp only [State.readWords, hno, State.grants_idle _ hw, State.readGranted_eq]
      rw [if_pos trivial]
      cases before with
      | nil =>
        simp only [List.nil_append, List.cons.injEq] at h
        obtain ⟨rfl, h⟩ := h
        simp only [hbad]
        simp [State.wordsAt, State.setCursor_stay hb]
      | cons x before =>
        simp only [List.cons_append, List.cons.injEq] at h
        obtain ⟨rfl, h⟩ := h
        have hst : (({ s with arbiter := (Requestor.portEngine p).next } : State)).stepSlot p job
            = ({ s with arbiter := (Requestor.portEngine p).next } : State).setCursor p c
              (some { b with offset := b.mode.step b.offset b.stride job.length }) := by
          have hb' : ({ s with arbiter := (Requestor.portEngine p).next } : State).cursor p c
              = some b := hb
          simp only [State.stepSlot, hj, hb']
        simp only [hg b.offset (by simp), hst]
        rw [if_pos trivial]
        rw [ih (({ s with arbiter := (Requestor.portEngine p).next } : State).setCursor p c
          (some { b with offset := b.mode.step b.offset b.stride job.length }))
        { b with offset := b.mode.step b.offset b.stride job.length }
          (job.took (valueOf (s.versionWord job.pages b.offset))) before later o hj
          (State.cursor_setCursor_self _ _ _ _)
          (by rw [State.waiting_read]; exact hw) h
          (fun y hy => hg y (List.mem_cons_of_mem _ hy)) hbad]
        simp only [ReadJob.took, State.wordsAt, List.map_cons, State.setCursor_setCursor,
          List.append_assoc, List.cons_append, List.nil_append, List.length_cons]
        refine Prod.ext ?_ (Prod.ext ?_ rfl)
        · simp [State.setCursor]
        · simp only [ReadJob.mk.injEq, true_and]
          exact ⟨rfl, by omega⟩

/-- A PEEK whose every word reads well, beside which no other requestor waits (R56). -/
theorem State.readWords_peek_sound (p : Port) (start n : Nat) :
    ∀ (s : State) (job : ReadJob), job.left = n → job.walk = .peek start → s.waiting = [] →
      s.soundAt job.pages ((List.range n).map (fun i => start + job.words.length + i)) →
      State.readWords p n s job =
        ({ s with arbiter := if n = 0 then s.arbiter else Requestor.next (.portEngine p) },
          { job with
            words := job.words ++ s.wordsAt job.pages
              ((List.range n).map (fun i => start + job.words.length + i))
            left := job.left - n }, .complete) := by
  induction n with
  | zero =>
    intro s job hn _ _ _
    have he : s.readEnded p job = true := by simp [State.readEnded, hn]
    simp [State.readWords, he, State.wordsAt]
  | succ n ih =>
    intro s job hn hj hw h
    have hm : (List.range (n + 1)).map (fun i => start + job.words.length + i)
        = (start + job.words.length)
          :: (List.range n).map (fun i => start + (job.words.length + 1) + i) := by
      rw [List.range_succ_eq_map]
      simp only [List.map_cons, Nat.add_zero, List.map_map, Function.comp_def]
      congr 1
      apply List.map_congr_left
      intro i _
      omega
    rw [hm] at h ⊢
    have hno : s.nextOffset p job = some (start + job.words.length) := by
      simp [State.nextOffset, hj]
    have hst : ∀ x : State, x.stepSlot p job = x := by
      intro x
      simp [State.stepSlot, hj]
    simp only [State.readWords, hno, State.grants_idle _ hw, State.readGranted_eq,
      h (start + job.words.length) (by simp), hst]
    rw [if_pos trivial, if_pos trivial]
    rw [ih ({ s with arbiter := (Requestor.portEngine p).next } : State)
      (job.took (valueOf (s.versionWord job.pages (start + job.words.length))))
      (by simp [ReadJob.took, hn]) hj hw
      (fun x hx => h x (List.mem_cons_of_mem _ (by simpa [ReadJob.took] using hx)))]
    refine Prod.ext ?_ (Prod.ext ?_ rfl)
    · simp
    · simp only [ReadJob.took, ReadJob.mk.injEq, true_and, List.length_append, List.length_cons,
        List.length_nil, State.wordsAt, List.map_cons, List.append_assoc, List.cons_append,
        List.nil_append]
      exact ⟨rfl, by omega⟩

/-- A PEEK that meets a parity error stops there: the words before it, and the page reported (R58). -/
theorem State.readWords_peek_stops (p : Port) (start n : Nat) :
    ∀ (s : State) (job : ReadJob) (before later : List Nat) (o : Nat), job.walk = .peek start →
      s.waiting = [] →
      (List.range n).map (fun i => start + job.words.length + i) = before ++ o :: later →
      s.soundAt job.pages before → oddOnes (s.versionWord job.pages o) = false →
      State.readWords p n s job =
        (({ s with arbiter := Requestor.next (.portEngine p) } : State).parityReport job.table
            job.number (o / Config.pageWords),
          { job with
            words := job.words ++ s.wordsAt job.pages before, left := job.left - before.length },
          .parity) := by
  induction n with
  | zero =>
    intro s job before later o _ _ h
    simp at h
  | succ n ih =>
    intro s job before later o hj hw h hg hbad
    have hm : (List.range (n + 1)).map (fun i => start + job.words.length + i)
        = (start + job.words.length)
          :: (List.range n).map (fun i => start + (job.words.length + 1) + i) := by
      rw [List.range_succ_eq_map]
      simp only [List.map_cons, Nat.add_zero, List.map_map, Function.comp_def]
      congr 1
      apply List.map_congr_left
      intro i _
      omega
    rw [hm] at h
    have hno : s.nextOffset p job = some (start + job.words.length) := by
      simp [State.nextOffset, hj]
    have hst : ∀ x : State, x.stepSlot p job = x := by
      intro x
      simp [State.stepSlot, hj]
    simp only [State.readWords, hno, State.grants_idle _ hw, State.readGranted_eq, hst]
    rw [if_pos trivial]
    cases before with
    | nil =>
      simp only [List.nil_append, List.cons.injEq] at h
      obtain ⟨rfl, h⟩ := h
      simp only [hbad]
      simp [State.wordsAt]
    | cons x before =>
      simp only [List.cons_append, List.cons.injEq] at h
      obtain ⟨rfl, h⟩ := h
      simp only [hg (start + job.words.length) (by simp)]
      rw [if_pos trivial]
      rw [ih ({ s with arbiter := (Requestor.portEngine p).next } : State)
        (job.took (valueOf (s.versionWord job.pages (start + job.words.length)))) before later o hj hw
        (by simpa [ReadJob.took] using h) (fun y hy => hg y (List.mem_cons_of_mem _ hy)) hbad]
      refine Prod.ext rfl (Prod.ext ?_ rfl)
      simp only [ReadJob.took, ReadJob.mk.injEq, true_and, State.wordsAt, List.map_cons,
        List.append_assoc, List.cons_append, List.nil_append, List.length_cons]
      exact ⟨rfl, by omega⟩

/-- A read moves its own slot only, and that only in its offset; a PEEK moves none. -/
theorem State.readWords_cursor (p : Port) (n : Nat) :
    ∀ (s : State) (job : ReadJob) (q : Port) (d : SlotId),
      (State.readWords p n s job).1.cursor q d = s.cursor q d
        ∨ q = p ∧ job.walk = .fetch d
          ∧ ∃ b o, s.cursor q d = some b
            ∧ (State.readWords p n s job).1.cursor q d = some { b with offset := o } := by
  induction n with
  | zero =>
    intros
    exact Or.inl rfl
  | succ n ih =>
    intro s job q d
    unfold State.readWords
    split
    · exact Or.inl rfl
    · split
      · dsimp only
        split
        · rename_i o _ _ _
          have hs : ((s.readGranted (.portEngine p) job.pages o).1.stepSlot p job).cursor q d
              = s.cursor q d
            ∨ q = p ∧ job.walk = .fetch d ∧ ∃ b o', s.cursor q d = some b
              ∧ ((s.readGranted (.portEngine p) job.pages o).1.stepSlot p job).cursor q d
                = some { b with offset := o' } := by
            rw [State.readGranted_eq]
            unfold State.stepSlot
            cases hj : job.walk with
            | peek start => exact Or.inl rfl
            | fetch c =>
              dsimp only
              cases hb : ({ s with arbiter := (Requestor.portEngine p).next } : State).cursor p c with
              | none => exact Or.inl rfl
              | some b =>
                by_cases hqd : (q, d) = (p, c)
                · obtain ⟨rfl, rfl⟩ := Prod.mk.inj hqd
                  exact Or.inr ⟨rfl, rfl, b, _, hb, State.cursor_setCursor_self _ _ _ _⟩
                · left
                  dsimp only
                  rw [State.cursor_setCursor_ne _ _ hqd]
                  rfl
          rcases ih ((s.readGranted (.portEngine p) job.pages o).1.stepSlot p job)
            (job.took (s.readGranted (.portEngine p) job.pages o).2.1) q d with h | h
          · rw [h]
            exact hs
          · obtain ⟨hq, hj, b, o1, hb, h⟩ := h
            rcases hs with hs | hs
            · exact Or.inr ⟨hq, hj, b, o1, by rw [← hs, hb], h⟩
            · obtain ⟨_, _, b0, o0, hb0, hs⟩ := hs
              rw [hb, Option.some.injEq] at hs
              subst hs
              exact Or.inr ⟨hq, hj, b0, o1, hb0, h⟩
        · left
          rw [State.parityReport_cursor, State.readGranted_eq]
          rfl
      · exact Or.inl rfl

end Sys2Proof.Machine
end

