-- ==== Sys2Proof/Laws/Events.lean ====
section
/-! SUPPORT. The event queues: what entering an event can do to a queue, and the bound it keeps. -/

namespace Sys2Proof.Machine

/-- A queue within its capacity, its overrun flag only beside an entry (R145, R148). -/
def EventQueue.bounded (q : EventQueue) : Prop :=
  q.entries.length ≤ Config.eventCapacity ∧ (q.overrun = true → q.entries ≠ [])

theorem EventQueue.bounded_fresh : EventQueue.fresh.bounded := by
  simp [EventQueue.bounded, EventQueue.fresh]

/-- Steps 3 to 5 of R146 keep the bound. -/
theorem EventQueue.bounded_enter {q : EventQueue} (e : Event) (h : q.bounded) :
    (q.enter e).bounded := by
  obtain ⟨hl, ho⟩ := h
  unfold EventQueue.enter
  split
  · refine ⟨by simpa using hl, ?_⟩
    intro hov
    simpa using ho hov
  · split
    · rename_i hlt
      refine ⟨?_, by simp⟩
      simp only [List.length_append, List.length_cons, List.length_nil]
      omega
    · rename_i hge
      refine ⟨hl, ?_⟩
      intro _ hnil
      exact hge (by rw [show q.entries = [] from hnil]; decide)

theorem State.enterEvent_queue_other (s : State) {p q : Port} (named : Option Nat) (e : Event)
    (h : q ≠ p) : (s.enterEvent p named e).queue q = s.queue q := by
  unfold State.enterEvent
  split
  · exact State.queue_setQueue_other _ _ _ h
  · rfl

/-- An event leaves its own port's queue as it was, or takes steps 3 to 5 of R146 on it. -/
theorem State.enterEvent_queue_self (s : State) (p : Port) (named : Option Nat) (e : Event) :
    (s.enterEvent p named e).queue p = s.queue p
      ∨ (s.enterEvent p named e).queue p = (s.queue p).enter e := by
  unfold State.enterEvent
  split
  · exact Or.inr (State.queue_setQueue_self ..)
  · exact Or.inl rfl

/-- Entering events keeps every queue within its bound. -/
theorem State.bounded_enterEvent {s : State} (p : Port) (named : Option Nat) (e : Event)
    (h : ∀ q, (s.queue q).bounded) (q : Port) : ((s.enterEvent p named e).queue q).bounded := by
  by_cases hq : q = p
  · subst hq
    rcases State.enterEvent_queue_self s q named e with h1 | h1 <;> rw [h1]
    · exact h q
    · exact EventQueue.bounded_enter e (h q)
  · rw [State.enterEvent_queue_other s named e hq]
    exact h q

theorem State.bounded_enterEvents {s : State} (ports : List Port) (e : Event)
    (h : ∀ q, (s.queue q).bounded) (q : Port) : ((s.enterEvents ports e).queue q).bounded := by
  induction ports generalizing s with
  | nil => exact h q
  | cons p rest ih => exact ih (State.bounded_enterEvent p none e h)

theorem State.bounded_tellWriter {s : State} (t : TableId) (n : Nat) (e : Event)
    (h : ∀ q, (s.queue q).bounded) (q : Port) : ((s.tellWriter t n e).queue q).bounded := by
  unfold State.tellWriter
  split
  · exact State.bounded_enterEvent _ _ _ h q
  · exact h q

/-- The ports of a table's readers and its writer. -/
theorem TableEntry.mem_audience (e : TableEntry) (p : Port) :
    p ∈ e.audience ↔ e.readers.getLsbD p.val = true ∨ e.writer = some p := by
  have h : p ∈ allPorts := by
    fin_cases p <;> simp [allPorts]
  simp [TableEntry.audience, h]

end Sys2Proof.Machine
end

