-- ==== Sys2Proof/Laws/Frames.lean ====
section
/-! SUPPORT. What a frame shifts out: the bits of data out are those of its bytes. -/

namespace Sys2Proof.Machine

/-- Each byte that a frame shifts out stands on data out bit by bit, most significant bit first; where no
byte is shifted out, data out is high impedance (R168). -/
theorem State.sdoBit_byte (s : State) (p : Port) (i : Nat) {j : Nat} (h : j < 8) :
    s.sdoBit p (8 * i + j) = (s.sdoByte p i).map (fun b => b.getLsbD (7 - j)) := by
  have hd : (8 * i + j) / 8 = i := by omega
  have hm : (8 * i + j) % 8 = j := by omega
  simp only [State.sdoBit, hd, hm]

end Sys2Proof.Machine
end

