-- ==== Sys2Proof/Laws/PerInstr.lean ====
section
/-! SUPPORT. Statements made per command: a request's row is well formed exactly where the request it
carries out is. -/

namespace Sys2Proof.Laws.RequestForm

/-- Where a command is the row of a request, it is well formed exactly where that request is. -/
def Statement (i : Instr) : Prop :=
  ∀ p r, i.asRequest = some (p, r) → i.wellFormed = r.wellFormed

theorem frame (p : Port) (bits : List Bool) : Statement (.frame p bits) := fun _ _ h => nomatch h
theorem pending (p : Port) (edge : PendingEdge) : Statement (.pending p edge) :=
  fun _ _ h => nomatch h
theorem portBreak (p : Port) : Statement (.portBreak p) := fun _ _ h => nomatch h
theorem nop (p : Port) : Statement (.nop p) := fun _ _ h => by cases h; rfl
theorem status (p : Port) : Statement (.status p) := fun _ _ h => by cases h; rfl
theorem openSession (p : Port) (lease : Word) : Statement (.openSession p lease) :=
  fun _ _ h => by cases h; rfl
theorem close (p : Port) : Statement (.close p) := fun _ _ h => by cases h; rfl
theorem mask (p : Port) (mask : Byte) : Statement (.mask p mask) := fun _ _ h => by cases h; rfl
theorem events (p : Port) (n : Byte) : Statement (.events p n) := fun _ _ h => by cases h; rfl
theorem tableInfo (p : Port) (table : Byte) : Statement (.tableInfo p table) :=
  fun _ _ h => by cases h; rfl
theorem bind (p : Port) (slot table : Byte) (offset : Word) (mode stride follow : Byte) :
    Statement (.bind p slot table offset mode stride follow) :=
  fun _ _ h => by cases h; rfl
theorem unbind (p : Port) (slot : Byte) : Statement (.unbind p slot) := fun _ _ h => by cases h; rfl
theorem seek (p : Port) (slot : Byte) (offset : Word) : Statement (.seek p slot offset) :=
  fun _ _ h => by cases h; rfl
theorem fetch (p : Port) (slot count : Byte) (words : Nat) : Statement (.fetch p slot count words) :=
  fun _ _ h => by cases h; rfl
theorem peek (p : Port) (slot : Byte) (offset : Word) (count : Byte) (words : Nat) :
    Statement (.peek p slot offset count words) :=
  fun _ _ h => by cases h; rfl
theorem resync (p : Port) (slot : Byte) : Statement (.resync p slot) := fun _ _ h => by cases h; rfl
theorem cursorInfo (p : Port) (slot : Byte) : Statement (.cursorInfo p slot) :=
  fun _ _ h => by cases h; rfl
theorem save (p : Port) (slot : Byte) : Statement (.save p slot) := fun _ _ h => by cases h; rfl
theorem restore (p : Port) (slot : Byte) : Statement (.restore p slot) :=
  fun _ _ h => by cases h; rfl
theorem discard (p : Port) : Statement (.discard p) := fun _ _ h => by cases h; rfl
theorem stage (p : Port) (table : Byte) (length : Word) (fill : Byte) (value : Word) :
    Statement (.stage p table length fill value) :=
  fun _ _ h => by cases h; rfl
theorem write (p : Port) (table : Byte) (offset : Word) (words : List Word) :
    Statement (.write p table offset words) :=
  fun _ _ h => by cases h; rfl
theorem commit (p : Port) (table hold : Byte) : Statement (.commit p table hold) :=
  fun _ _ h => by cases h; rfl
theorem abort (p : Port) (table : Byte) : Statement (.abort p table) := fun _ _ h => by cases h; rfl
theorem persist (p : Port) (table : Byte) : Statement (.persist p table) :=
  fun _ _ h => by cases h; rfl
theorem maintEnter (p : Port) : Statement (.maintEnter p) := fun _ _ h => by cases h; rfl
theorem charterRead (p : Port) (entry : Byte) : Statement (.charterRead p entry) :=
  fun _ _ h => by cases h; rfl
theorem charterWrite (p : Port) (entry f0 f1 f2 f3 f4 : Byte) :
    Statement (.charterWrite p entry f0 f1 f2 f3 f4) :=
  fun _ _ h => by cases h; rfl
theorem charterCommit (p : Port) : Statement (.charterCommit p) := fun _ _ h => by cases h; rfl
theorem maintExit (p : Port) : Statement (.maintExit p) := fun _ _ h => by cases h; rfl
theorem leaseExpiry (p : Port) : Statement (.leaseExpiry p) := fun _ _ h => nomatch h
theorem sessionEndEventUnit (p : Port) : Statement (.sessionEndEventUnit p) :=
  fun _ _ h => nomatch h
theorem sessionEndCursorFile (p : Port) (order : List SlotId) :
    Statement (.sessionEndCursorFile p order) :=
  fun _ _ h => nomatch h
theorem sessionEndSaveStacks (p : Port) (order : List Nat) :
    Statement (.sessionEndSaveStacks p order) :=
  fun _ _ h => nomatch h
theorem sessionEndStaging (p : Port) : Statement (.sessionEndStaging p) := fun _ _ h => nomatch h
theorem sessionEndImageStore (p : Port) : Statement (.sessionEndImageStore p) :=
  fun _ _ h => nomatch h
theorem maintenanceSessionEnd (p : Port) : Statement (.maintenanceSessionEnd p) :=
  fun _ _ h => nomatch h
theorem parityReport (t : TableId) (version page : Nat) :
    Statement (.parityReport t version page) :=
  fun _ _ h => nomatch h
theorem checkReport (t : TableId) (version : Nat) : Statement (.checkReport t version) :=
  fun _ _ h => nomatch h
theorem fillWord : Statement .fillWord := fun _ _ h => nomatch h
theorem summingWord : Statement .summingWord := fun _ _ h => nomatch h
theorem retirementNotice (t : TableId) : Statement (.retirementNotice t) := fun _ _ h => nomatch h
theorem holdDeadline (t : TableId) : Statement (.holdDeadline t) := fun _ _ h => nomatch h
theorem persistStart : Statement .persistStart := fun _ _ h => nomatch h
theorem persistErase (verified : Bool) : Statement (.persistErase verified) :=
  fun _ _ h => nomatch h
theorem persistProgramWord (verified : Bool) : Statement (.persistProgramWord verified) :=
  fun _ _ h => nomatch h
theorem persistMarking (verified : Bool) : Statement (.persistMarking verified) :=
  fun _ _ h => nomatch h
theorem storeReadStart : Statement .storeReadStart := fun _ _ h => nomatch h
theorem slotVerifyRead : Statement .slotVerifyRead := fun _ _ h => nomatch h
theorem storeReadWord (disturbed : Option Word) : Statement (.storeReadWord disturbed) :=
  fun _ _ h => nomatch h
theorem charterWriteStart : Statement .charterWriteStart := fun _ _ h => nomatch h
theorem charterWriteErase (verified : Bool) : Statement (.charterWriteErase verified) :=
  fun _ _ h => nomatch h
theorem charterWriteCompletion (verified : Bool) : Statement (.charterWriteCompletion verified) :=
  fun _ _ h => nomatch h
theorem charterWriteResult : Statement .charterWriteResult := fun _ _ h => nomatch h
theorem powerOn : Statement .powerOn := fun _ _ h => nomatch h
theorem pinReset : Statement .pinReset := fun _ _ h => nomatch h
theorem supplyReset : Statement .supplyReset := fun _ _ h => nomatch h
theorem resetRelease (millivolts : Nat) : Statement (.resetRelease millivolts) :=
  fun _ _ h => nomatch h
theorem charterSelection : Statement .charterSelection := fun _ _ h => nomatch h
theorem loadTable (disturbed : List (Nat × Word)) : Statement (.loadTable disturbed) :=
  fun _ _ h => nomatch h
theorem supplyStateLow : Statement .supplyStateLow := fun _ _ h => nomatch h
theorem supplyStateOk : Statement .supplyStateOk := fun _ _ h => nomatch h
theorem scrubPeriodExpiry : Statement .scrubPeriodExpiry := fun _ _ h => nomatch h
theorem scrubWord : Statement .scrubWord := fun _ _ h => nomatch h
theorem frameOpen (p : Port) : Statement (.frameOpen p) := fun _ _ h => nomatch h
theorem discardingRise (p : Port) : Statement (.discardingRise p) := fun _ _ h => nomatch h

end Sys2Proof.Laws.RequestForm
end

