-- ==== Sys2Proof/Laws/Pool.lean ====
section
/-! SUPPORT. The page pool: what an allocation and a release do to the two collections, and that no page
is lost or doubled. -/

namespace Sys2Proof.Machine

theorem mem_insertSorted (x y : Nat) (l : List Nat) : y ∈ insertSorted x l ↔ y = x ∨ y ∈ l := by
  induction l with
  | nil => simp [insertSorted]
  | cons z l ih =>
    unfold insertSorted
    split
    · simp
    · split
      · rename_i h
        subst h
        simp
      · simp only [List.mem_cons, ih]
        tauto

theorem insertSorted_pairwise (x : Nat) (l : List Nat) (h : l.Pairwise (· < ·)) :
    (insertSorted x l).Pairwise (· < ·) := by
  induction l with
  | nil => simp [insertSorted]
  | cons y l ih =>
    simp only [List.pairwise_cons] at h
    unfold insertSorted
    split
    · rename_i hxy
      simp only [List.pairwise_cons, List.mem_cons]
      refine ⟨?_, h⟩
      rintro z (rfl | hz)
      · exact hxy
      · have := h.1 z hz
        omega
    · split
      · simp only [List.pairwise_cons]
        exact h
      · simp only [List.pairwise_cons]
        refine ⟨?_, ih h.2⟩
        intro z hz
        rcases (mem_insertSorted x z l).mp hz with rfl | hz
        · omega
        · exact h.1 z hz

theorem insertSorted_perm {x : Nat} {l : List Nat} (h : x ∉ l) :
    (insertSorted x l).Perm (x :: l) := by
  induction l with
  | nil => exact List.Perm.refl _
  | cons y l ih =>
    simp only [List.mem_cons, not_or] at h
    unfold insertSorted
    split
    · exact List.Perm.refl _
    · rw [if_neg h.1]
      exact ((ih h.2).cons y).trans (List.Perm.swap x y l)

/-- The sound pages of a release, as the rule names them: in logical order, those whose logical index is
not in the faulty set (R12). -/
theorem soundPages_eq (pages faulty : List Nat) :
    soundPages pages faulty
      = (List.range pages.length).filterMap (fun i => if i ∈ faulty then none else pages[i]?) := by
  unfold soundPages
  have key : ∀ (k : Nat) (l : List Nat),
      ((l.zipIdx k).filter (fun x => !faulty.contains x.2)).map Prod.fst
        = (List.range l.length).filterMap (fun i => if i + k ∈ faulty then none else l[i]?) := by
    intro k l
    induction l generalizing k with
    | nil => rfl
    | cons y l ih =>
      rw [List.zipIdx_cons, List.length_cons, List.range_succ_eq_map, List.filterMap_cons,
        List.filterMap_map]
      have ih1 := ih (k + 1)
      simp only [List.contains_eq_mem] at ih1
      by_cases hk : k ∈ faulty <;>
      · simp only [hk, Nat.zero_add, List.getElem?_cons_zero, List.filter_cons,
          List.contains_eq_mem, decide_true, decide_false, Bool.not_true, Bool.not_false,
          Bool.false_eq_true, if_true, if_false, List.map_cons, ih1]
        first
          | (apply List.filterMap_congr
             intro i _
             simp [Nat.add_assoc, Nat.add_comm 1 k])
          | (congr 1
             apply List.filterMap_congr
             intro i _
             simp [Nat.add_assoc, Nat.add_comm 1 k])
  simpa using key 0 pages

/-- A page list splits into its sound and its faulty pages. -/
theorem soundPages_append_faultyPages (pages faulty : List Nat) :
    (soundPages pages faulty ++ faultyPages pages faulty).Perm pages := by
  unfold soundPages faultyPages
  rw [← List.map_append]
  have h := List.filter_append_perm (fun x : Nat × Nat => !faulty.contains x.2) pages.zipIdx
  have h1 := h.map Prod.fst
  simpa using h1

theorem soundPages_sublist (pages faulty : List Nat) : (soundPages pages faulty).Sublist pages := by
  unfold soundPages
  have h := (List.filter_sublist (p := fun x : Nat × Nat => !faulty.contains x.2)
    (l := pages.zipIdx)).map Prod.fst
  simpa using h

/-- Pages inserted one by one: the pool stays ascending and gains exactly them. -/
theorem foldl_insertSorted (xs pool : List Nat) (hn : (pool ++ xs).Nodup) :
    (xs.foldl (fun l x => insertSorted x l) pool).Perm (pool ++ xs)
      ∧ (pool.Pairwise (· < ·) →
          (xs.foldl (fun l x => insertSorted x l) pool).Pairwise (· < ·)) := by
  induction xs generalizing pool with
  | nil => simp
  | cons x xs ih =>
    have hx : x ∉ pool := by
      intro hx
      rw [List.nodup_append] at hn
      exact hn.2.2 x hx x (by simp) rfl
    have hp : (insertSorted x pool ++ xs).Perm (pool ++ x :: xs) :=
      ((insertSorted_perm hx).append_right xs).trans List.perm_middle.symm
    obtain ⟨h1, h2⟩ := ih (insertSorted x pool) (hp.nodup_iff.mpr hn)
    exact ⟨h1.trans hp, fun h => h2 (insertSorted_pairwise x pool h)⟩

/-- A release moves every page of the list into one of the two collections (R12, R7). -/
theorem State.releasePages_perm (s : State) (pages faulty : List Nat)
    (hn : (s.freePool ++ pages).Nodup) :
    ((s.releasePages pages faulty).freePool ++ (s.releasePages pages faulty).quarantine).Perm
      (s.freePool ++ s.quarantine ++ pages) := by
  have hs : (s.freePool ++ soundPages pages faulty).Nodup :=
    hn.sublist ((List.Sublist.refl _).append (soundPages_sublist _ _))
  have h1 := (foldl_insertSorted (soundPages pages faulty) s.freePool hs).1
  have h2 := soundPages_append_faultyPages pages faulty
  simp only [State.releasePages]
  calc
    _ = (soundPages pages faulty).foldl (fun l x => insertSorted x l) s.freePool
          ++ (s.quarantine ++ faultyPages pages faulty) := rfl
    _ |>.Perm ((s.freePool ++ soundPages pages faulty)
          ++ (s.quarantine ++ faultyPages pages faulty)) := h1.append_right _
    _ |>.Perm ((s.freePool ++ s.quarantine)
          ++ (soundPages pages faulty ++ faultyPages pages faulty)) := by
        simp only [List.append_assoc]
        refine List.Perm.append_left _ ?_
        rw [← List.append_assoc, ← List.append_assoc]
        exact List.Perm.append_right _ List.perm_append_comm
    _ |>.Perm _ := List.Perm.append_left _ h2

/-- An allocation takes the lowest free pages, or fails and changes nothing (R9, R10). -/
theorem State.allocate_some {s t : State} {n : Nat} {pages : List Nat}
    (h : s.allocate n = some (pages, t)) :
    n ≤ s.freePool.length ∧ pages = s.freePool.take n ∧ t = { s with freePool := s.freePool.drop n } := by
  unfold State.allocate at h
  split at h
  · rename_i hn
    simp only [Option.some.injEq, Prod.mk.injEq] at h
    exact ⟨hn, h.1.symm, h.2.symm⟩
  · simp at h

theorem State.allocate_none {s : State} {n : Nat} (h : s.allocate n = none) :
    s.freePool.length < n := by
  unfold State.allocate at h
  split at h
  · simp at h
  · omega

end Sys2Proof.Machine
end

