-- ==== Sys2Proof/Laws/Reset.lean ====
section
/-! SUPPORT. What a part reset leaves, field by field, and what the entry to SERVICE changes. -/

namespace Sys2Proof.Machine

@[simp] theorem mapVector_get {α β : Type} {n : Nat} (f : α → β) (v : Vector α n) (i : Fin n) :
    (mapVector f v)[i] = f v[i] := by
  simp [mapVector]

/-- An abandoned operation changes slots of the image store only (R123). -/
theorem State.abandonImageWork_frame (s : State) :
    s.abandonImageWork = { s with
      store := s.abandonImageWork.store, charterSlots := s.abandonImageWork.charterSlots } := by
  unfold State.abandonImageWork
  split <;> rfl

/-- Without a write in flight no slot changes. -/
theorem State.abandonImageWork_idle {s : State} (h : s.imageWork = .idle) :
    s.abandonImageWork = s := by
  simp [State.abandonImageWork, h]

section
variable (s : State) (k : ResetKind)

theorem State.partReset_pending : (s.partReset k).pending = s.pending :=
  (congrArg State.pending s.abandonImageWork_frame).trans rfl

theorem State.partReset_engine (p : Port) :
    (s.partReset k).engine p = (s.engine p).atReset k := by
  simp only [State.engine, State.partReset, mapVector_get]

theorem State.partReset_session (p : Port) :
    (s.partReset k).session p = (s.session p).atReset k := by
  simp only [State.session, State.partReset, mapVector_get]

theorem State.partReset_table (t : TableId) :
    (s.partReset k).table t = (s.table t).atReset k := by
  simp only [State.table, State.partReset, mapVector_get]

theorem State.partReset_queue (p : Port) : (s.partReset k).queue p = EventQueue.fresh := by
  simp [State.queue, State.partReset]

theorem State.partReset_cursor (p : Port) (c : SlotId) : (s.partReset k).cursor p c = none := by
  simp [State.cursor, State.partReset]

theorem State.partReset_stack (p : Port) : (s.partReset k).stack p = [] := by
  simp [State.stack, State.partReset]

theorem State.partReset_endsOf (p : Port) : (s.partReset k).endsOf p = [] := by
  simp [State.endsOf, State.partReset]
end

theorem TableRecord.atReset_vacant (r : TableRecord) (k : ResetKind) : (r.atReset k).vacant := by
  unfold TableRecord.atReset
  split <;> exact ⟨rfl, rfl, rfl⟩

theorem Session.atReset_closed (x : Session) (k : ResetKind) :
    (x.atReset k).isOpen = false ∧ (x.atReset k).leaseTimer = none := by
  cases k <;> exact ⟨rfl, rfl⟩

/-- A table record rebuilt at CHARTER_SELECTION (R39, R127). -/
theorem State.selectCharter_table {s : State} (h : s.part.state = .loading)
    (hc : s.part.loading = .charter) (t : TableId) :
    s.selectCharter.table t = TableRecord.fresh (s.charterSlots.inForce.1.tables[t]) := by
  unfold State.selectCharter
  rw [if_pos ⟨h, hc⟩]
  simp only [State.table, mapVector_get]

/-- The entry to SERVICE or UNCHARTERED changes the scrubber and the part controller only. -/
theorem State.enterService_frame (s : State) :
    s.enterService = { s with scrub := s.enterService.scrub, part := s.enterService.part } := by
  unfold State.enterService
  split <;> rfl

/-- After a table id, only the scrubber and the part controller change. -/
theorem State.loadNext_frame (s : State) (t : TableId) :
    s.loadNext t = { s with scrub := (s.loadNext t).scrub, part := (s.loadNext t).part } := by
  unfold State.loadNext
  split
  · rfl
  · exact State.enterService_frame s

end Sys2Proof.Machine
end

