-- ==== Sys2Proof/Laws/Scrubber.lean ====
section
/-! SUPPORT. The scrubber's visits: where a visit has gone makes no difference to what follows its end. -/

namespace Sys2Proof.Machine

theorem State.firstVisit_scrub (s : State) (x : Scrubber) (ids : List TableId) :
    ({ s with scrub := x } : State).firstVisit ids = s.firstVisit ids := by
  induction ids with
  | nil => rfl
  | cons t ids ih =>
    have h : ({ s with scrub := x } : State).table t = s.table t := rfl
    simp only [State.firstVisit, h, ih]

/-- The end of a visit does not depend on how far the visit had gone (R105). -/
theorem State.endVisit_setVisit (s : State) (v : Visit) (t : TableId) :
    (s.setVisit v).endVisit t = s.endVisit t := by
  unfold State.endVisit State.setVisit State.startPass
  simp only [State.firstVisit_scrub]
  repeat' split
  all_goals rfl

/-- A sound word of a visit that holds: it is fed, and after the last one the register is compared (R106,
R107). -/
theorem State.scrubOne_good {s : State} {v : Visit} (h : s.visitHolds v = true)
    (hw : oddOnes (s.versionWord v.pages v.offset) = true) :
    s.scrubOne v =
      let fed := v.fed (valueOf (s.versionWord v.pages v.offset))
      if v.offset + 1 < v.length then s.setVisit fed
      else if v.check = some fed.register then s.endVisit v.table
      else { s.setVisit fed with reports := s.reports ++ [.check v.table v.number] } := by
  unfold State.scrubOne
  simp only [h, hw, if_true]
  split
  · exact (if_pos (by assumption)).symm
  · rw [if_neg (by assumption)]
    unfold State.compareVisit
    split
    · rw [if_pos (by assumption)]
      exact State.endVisit_setVisit s _ _
    · rw [if_neg (by assumption)]
      rfl

end Sys2Proof.Machine
end

