-- ==== Sys2Proof/Laws/Staging.lean ====
section
/-! SUPPORT. How a STAGED version's work ends, and what its release leaves. -/

namespace Sys2Proof.Machine

theorem State.leaveWorkList_head {s : State} {t : TableId} {rest : List TableId}
    (h : s.workList = t :: rest) :
    s.leaveWorkList t
      = { s with workList := s.workList.filter (fun u => u ≠ t), headWork := none } := by
  simp [State.leaveWorkList, h]

@[simp] theorem State.leaveWorkList_table (s : State) (t u : TableId) :
    (s.leaveWorkList t).table u = s.table u := rfl

theorem State.setSub_some {s : State} {t : TableId} {st : Staged} (sub : SubState)
    (h : (s.table t).staged = some st) :
    s.setSub t sub = s.setTable t { s.table t with staged := some { st with sub := sub } } := by
  simp [State.setSub, h]

theorem State.setStagedCheck_some {s : State} {t : TableId} {st : Staged} (check : Option Word)
    (h : (s.table t).staged = some st) :
    s.setStagedCheck t check
      = s.setTable t { s.table t with
          staged := some { st with version := { st.version with check := check } } } := by
  simp [State.setStagedCheck, h]

/-- Whether a commit's session still holds (R89, R91). -/
theorem State.issuingSessionHolds_iff (s : State) (t : TableId) (st : Staged) :
    s.issuingSessionHolds t st = true ↔
      ∃ p, (s.table t).entry.writer = some p ∧ (s.session p).isOpen = true
        ∧ (s.session p).number = st.session := by
  unfold State.issuingSessionHolds
  cases h : (s.table t).entry.writer with
  | none => simp
  | some p => simp [State.sessionIs]

/-- A STORE_READ withdrawn or stopped changes the image store queue and the operation in flight only
(R93, R125). -/
theorem State.withdrawStoreRead_frame (s : State) (t : TableId) :
    s.withdrawStoreRead t = { s with
      imageQueue := (s.withdrawStoreRead t).imageQueue
      imageWork := (s.withdrawStoreRead t).imageWork } := by
  unfold State.withdrawStoreRead
  repeat' split
  all_goals rfl

/-- The end of a STAGED version's work changes the directory, the two queues and the head's progress
only. -/
theorem State.endStagedWork_frame (s : State) (t : TableId) :
    s.endStagedWork t = { s.withDirectoryOf (s.endStagedWork t) with
      workList := (s.endStagedWork t).workList, headWork := (s.endStagedWork t).headWork
      imageQueue := (s.endStagedWork t).imageQueue
      imageWork := (s.endStagedWork t).imageWork } := by
  have hu : ∀ n, (s.unpin t n).leaveWorkList t
      = { s.withDirectoryOf ((s.unpin t n).leaveWorkList t) with
          workList := ((s.unpin t n).leaveWorkList t).workList
          headWork := ((s.unpin t n).leaveWorkList t).headWork
          imageQueue := ((s.unpin t n).leaveWorkList t).imageQueue
          imageWork := ((s.unpin t n).leaveWorkList t).imageWork } := by
    intro n
    have h := s.unpin_frame t n
    generalize s.unpin t n = d at h
    rw [h]
    rfl
  have hw : s.withdrawStoreRead t
      = { s.withDirectoryOf (s.withdrawStoreRead t) with
          workList := (s.withdrawStoreRead t).workList
          headWork := (s.withdrawStoreRead t).headWork
          imageQueue := (s.withdrawStoreRead t).imageQueue
          imageWork := (s.withdrawStoreRead t).imageWork } := by
    have h := s.withdrawStoreRead_frame t
    generalize s.withdrawStoreRead t = d at h
    rw [h]
    rfl
  unfold State.endStagedWork
  split
  · split
    · exact hw
    · dsimp only
      split
      · split
        · exact hu _
        · rfl
      · rfl
    · dsimp only
      split
      · split
        · exact hu _
        · rfl
      · rfl
    · dsimp only
      split
      · split
        · exact hu _
        · rfl
      · rfl
    · dsimp only
      split
      · split
        · exact hu _
        · rfl
      · rfl
    · rfl
    · rfl
  · rfl

/-- The end of its work leaves the STAGED version in its record, and every other table's record. -/
theorem State.endStagedWork_table (s : State) (t : TableId) :
    ((s.endStagedWork t).table t).staged = (s.table t).staged
      ∧ ((s.endStagedWork t).table t).entry = (s.table t).entry
      ∧ ∀ u, u ≠ t → (s.endStagedWork t).table u = s.table u := by
  have hw : ∀ u, (s.withdrawStoreRead t).table u = s.table u := by
    intro u
    rw [State.withdrawStoreRead_frame]
    rfl
  have hu : ∀ n, ((s.unpin t n).table t).staged = (s.table t).staged
      ∧ ((s.unpin t n).table t).entry = (s.table t).entry := by
    intro n
    rw [State.unpin_table_self]
    exact ⟨TableRecord.unpinned_staged _ _, TableRecord.unpinned_entry _ _⟩
  unfold State.endStagedWork
  repeat' split
  all_goals first
    | exact ⟨rfl, rfl, fun _ _ => rfl⟩
    | exact ⟨by rw [hw], by rw [hw], fun u _ => hw u⟩
    | exact ⟨(hu _).1, (hu _).2, fun u h => State.unpin_table_other s _ h⟩

/-- An abandoned STAGED version is gone; its table keeps its entry, and every other table its record. -/
theorem State.abandonStaged_table (s : State) (t : TableId) :
    ((s.abandonStaged t).table t).staged = none
      ∧ ((s.abandonStaged t).table t).entry = (s.table t).entry
      ∧ ∀ u, u ≠ t → (s.abandonStaged t).table u = s.table u := by
  obtain ⟨_, he, ho⟩ := s.endStagedWork_table t
  refine ⟨?_, ?_, fun u h => ?_⟩
  · simp [State.abandonStaged, State.releaseStaged_table_self]
  · simp [State.abandonStaged, State.releaseStaged_table_self, he]
  · rw [State.abandonStaged, State.releaseStaged_table_other _ h, ho u h]

/-- What an abandonment changes. -/
theorem State.abandonStaged_frame (s : State) (t : TableId) :
    s.abandonStaged t = { s.withDirectoryOf (s.abandonStaged t) with
      workList := (s.abandonStaged t).workList, headWork := (s.abandonStaged t).headWork
      imageQueue := (s.abandonStaged t).imageQueue
      imageWork := (s.abandonStaged t).imageWork } := by
  have h1 := s.endStagedWork_frame t
  have h2 := (s.endStagedWork t).releaseStaged_frame t
  unfold State.abandonStaged
  generalize (s.endStagedWork t).releaseStaged t = d at h2 ⊢
  generalize s.endStagedWork t = e at h1 h2
  rw [h2, h1]
  rfl

/-! ## One word of a fill -/

/-- One word of a fill that is not its last: the word is stored, and the head goes on (R83). -/
theorem State.fillOne_goesOn {s : State} {t : TableId} {st : Staged} {w : HeadWork} {a : Nat}
    (value : Word) (ha : wordAddress st.version.pages w.offset = some a)
    (h : w.offset + 1 < st.version.length) :
    s.fillOne t st w value = { s with
      mem := Memory.write s.mem a (storedOf value), arbiter := .imageStore
      headWork := some { w with offset := w.offset + 1, copied := none } } := by
  simp [State.fillOne, State.writeGranted, State.grant, ha, h, Requestor.next]

/-- The last word of a fill at the head of the list: it is stored, the source is unpinned, the version is
OPEN, the entry leaves, and FILL_DONE is entered (R85). -/
theorem State.fillOne_completes {s : State} {t : TableId} {rest : List TableId} {st : Staged}
    {w : HeadWork} {a : Nat} (value : Word) (hl : s.workList = t :: rest)
    (hs : (s.table t).staged = some st) (ha : wordAddress st.version.pages w.offset = some a)
    (h : w.offset + 1 = st.version.length) :
    let stored : State :=
      { s with mem := Memory.write s.mem a (storedOf value), arbiter := .imageStore }
    let unpinned : State := match w.source with
      | some n => stored.unpin t n
      | none => stored
    s.fillOne t st w value
      = (({ unpinned.setTable t { unpinned.table t with
              staged := some { st with sub := .opened } } with
            workList := s.workList.filter (fun u => u ≠ t), headWork := none } :
            State).tellWriter t st.session (fillDone t st.version.number .ok)) := by
  intro stored unpinned
  have hw : s.writeGranted .staging st.version.pages w.offset value = stored := by
    simp only [State.writeGranted, State.grant, ha]
    rfl
  have hu : (unpinned.table t).staged = some st ∧ unpinned.workList = s.workList := by
    simp only [unpinned]
    split
    · rw [State.unpin_table_self, TableRecord.unpinned_staged]
      exact ⟨hs, by simp [stored]⟩
    · exact ⟨hs, rfl⟩
  have hn : ¬ w.offset + 1 < st.version.length := by omega
  have hc : s.fillOne t st w value = ((unpinned.setSub t .opened).leaveWorkList t).tellWriter t
      st.session (fillDone t st.version.number .ok) := by
    unfold State.fillOne State.completeFill
    simp only [hw, hn, if_false, unpinned]
    first | done | rfl
  rw [hc, State.setSub_some _ hu.1]
  have hx : ∀ r, (unpinned.setTable t r).workList = t :: rest := fun _ => hu.2.trans hl
  rw [State.leaveWorkList_head (hx _)]
  simp [hu.2]

end Sys2Proof.Machine
end

