-- ==== Sys2Proof/Laws/Turns.lean ====
section
/-! SUPPORT. Reads and WRITEs in their turns: where the request stands makes no difference to what its next
words are, so that a request that begins does what it does once its first words stand before it. -/

namespace Sys2Proof.Machine

/-- Stepping a slot changes no requestor's waiting, nor does the arbiter's pointer. -/
theorem State.stepSlot_waits (s : State) (a : Requestor) (p : Port) (job : ReadJob) :
    (({ s with arbiter := a } : State).stepSlot p job).waits = s.waits := by
  unfold State.stepSlot
  split
  · split <;> rfl
  · rfl

theorem State.stepSlot_setTurn (s : State) (p : Port) (turn : Turn) (job : ReadJob) :
    (s.setTurn p turn).stepSlot p job = (s.stepSlot p job).setTurn p turn := by
  have h : ∀ c, (s.setTurn p turn).cursor p c = s.cursor p c := fun _ => rfl
  unfold State.stepSlot
  split
  · simp only [h]
    split <;> rfl
  · rfl

theorem State.enterEvents_setTurn (s : State) (p : Port) (turn : Turn) (ports : List Port)
    (e : Event) :
    (s.setTurn p turn).enterEvents ports e = (s.enterEvents ports e).setTurn p turn := by
  unfold State.enterEvents
  induction ports generalizing s with
  | nil => rfl
  | cons q ports ih =>
    have h : (s.setTurn p turn).enterEvent q none e = (s.enterEvent q none e).setTurn p turn := by
      have hs : (s.setTurn p turn).session q = s.session q := rfl
      unfold State.enterEvent
      simp only [hs]
      split <;> rfl
    simp only [List.foldl_cons]
    rw [h, ih]

theorem State.parityReport_setTurn (s : State) (p : Port) (turn : Turn) (t : TableId)
    (n page : Nat) :
    (s.setTurn p turn).parityReport t n page = (s.parityReport t n page).setTurn p turn := by
  have ht : (s.setTurn p turn).table t = s.table t := rfl
  have hs : ∀ r, (s.setTurn p turn).setTable t r = (s.setTable t r).setTurn p turn := fun _ => rfl
  unfold State.parityReport State.enterDamage
  simp only [ht, hs]
  repeat' split
  all_goals first
    | rfl
    | (rw [← State.enterEvents_setTurn]; rfl)

/-- A retirement does not depend on where a request stands. -/
theorem State.retire_setTurn (s : State) (p : Port) (turn : Turn) (t : TableId) :
    (s.setTurn p turn).retire t = (s.retire t).setTurn p turn := by
  have ht : (s.setTurn p turn).table t = s.table t := rfl
  unfold State.retire State.enterEvent
  simp only [ht]
  repeat' split
  all_goals first
    | rfl
    | simp_all [State.session, State.setTurn, State.setTable, State.setEngine, State.releasePages]

/-- An unpin does not depend on where a request stands. -/
theorem State.unpin_setTurn (s : State) (p : Port) (turn : Turn) (t : TableId) (n : Nat) :
    (s.setTurn p turn).unpin t n = (s.unpin t n).setTurn p turn := by
  have ht : (s.setTurn p turn).table t = s.table t := rfl
  have hs : ∀ r, (s.setTurn p turn).setTable t r = (s.setTable t r).setTurn p turn := fun _ => rfl
  unfold State.unpin
  simp only [ht, hs, State.retire_setTurn]
  repeat' split
  all_goals rfl

/-- A record that keeps its STAGED version changes no requestor's waiting. -/
theorem State.waits_setTable {s : State} {t : TableId} {r : TableRecord}
    (h : r.staged = (s.table t).staged) (q : Requestor) : (s.setTable t r).waits q = s.waits q := by
  refine State.waits_congr (s := s) (t := s.setTable t r) (fun _ => rfl) (fun _ => rfl) rfl
    (fun u => ?_) rfl q
  by_cases hu : u = t
  · subst hu
    simpa using h
  · rw [State.table_setTable_other _ _ _ hu]

/-- An unpin changes no requestor's waiting. -/
@[simp] theorem State.waits_unpin (s : State) (t : TableId) (n : Nat) (q : Requestor) :
    (s.unpin t n).waits q = s.waits q := by
  refine State.waits_congr (fun p => ?_) (fun p => ?_) (by simp) (fun u => ?_) (by simp) q
  · simp [State.turn]
  · simp
  · by_cases hu : u = t
    · subst hu
      rw [State.unpin_table_self, TableRecord.unpinned_staged]
    · rw [State.unpin_table_other s n hu]

/-- The words read do not depend on where the request stands, so long as the others wait as before. -/
theorem State.readWords_setTurn (p : Port) (turn : Turn) (n : Nat) :
    ∀ (s : State) (job : ReadJob),
      (∀ q, q ≠ .portEngine p → (s.setTurn p turn).waits q = s.waits q) →
      State.readWords p n (s.setTurn p turn) job
        = ((State.readWords p n s job).1.setTurn p turn, (State.readWords p n s job).2) := by
  induction n with
  | zero =>
    intro s job _
    have he : (s.setTurn p turn).readEnded p job = s.readEnded p job := rfl
    simp only [State.readWords, he]
  | succ n ih =>
    intro s job h
    have hn : (s.setTurn p turn).nextOffset p job = s.nextOffset p job := rfl
    have hg : (s.setTurn p turn).grants (.portEngine p) = s.grants (.portEngine p) :=
      State.grants_congr rfl h
    have hv : ∀ o, (s.setTurn p turn).versionWord job.pages o = s.versionWord job.pages o :=
      fun _ => rfl
    have ha : ({ s.setTurn p turn with arbiter := (Requestor.portEngine p).next } : State)
        = ({ s with arbiter := (Requestor.portEngine p).next } : State).setTurn p turn := rfl
    unfold State.readWords
    rw [hn, hg]
    cases s.nextOffset p job with
    | none => rfl
    | some o =>
      simp only
      split
      · simp only [State.readGranted_eq, hv, ha]
        split
        · rw [State.stepSlot_setTurn, ih]
          intro q hq
          rw [← State.stepSlot_setTurn, ← ha, State.stepSlot_waits, State.stepSlot_waits]
          exact h q hq
        · simp only [State.parityReport_setTurn]
      · rfl

theorem State.readReply_setTurn (s : State) (p : Port) (turn : Turn) (job : ReadJob)
    (parity : Bool) : (s.setTurn p turn).readReply p job parity = s.readReply p job parity := rfl

/-- A request that is no WRITE in its turns becomes a read in turns: no other requestor waits otherwise. -/
theorem State.waits_setReading {s : State} {p : Port} {req : Request} {tag : Byte} {turn : Turn}
    (h : s.asksAt p req tag turn) (ht : ∀ w, turn ≠ .writing w) (job : ReadJob) {q : Requestor}
    (hq : q ≠ .portEngine p) : (s.setTurn p (.reading job)).waits q = s.waits q := by
  by_cases hs : q = .staging
  · subst hs
    have hw : (s.setTurn p (.reading job)).writeWaits = s.writeWaits := by
      unfold State.writeWaits
      congr 1
      funext r
      have hi : ((s.setTurn p (.reading job)).session r).isOpen = (s.session r).isOpen := rfl
      by_cases hr : r = p
      · subst hr
        rw [State.turn_asks h, State.turn_setTurn_self _ h]
        cases turn with
        | writing w => exact absurd rfl (ht w)
        | start | held | pinned _ _ _ _ | reading _ => rfl
      · rw [State.turn_setTurn_ne _ _ hr, hi]
    have hh : (s.setTurn p (.reading job)).headWaits = s.headWaits := rfl
    simp [State.waits, hw, hh]
  · exact State.waits_setTurn s p _ hq hs

/-- What a read answers, and the state it leaves, do not depend on where its request stood. -/
theorem readOn_setTurn {s : State} {p : Port} {req : Request} {tag : Byte} {turn : Turn}
    (h : s.asksAt p req tag turn) (ht : ∀ w, turn ≠ .writing w) (words : Nat) (job : ReadJob) :
    (readOn p words job (s.setTurn p (.reading job))).2 = (readOn p words job s).2
      ∧ ((readOn p words job s).2 = none →
        (readOn p words job (s.setTurn p (.reading job))).1 = (readOn p words job s).1)
      ∧ (∀ r tag, (readOn p words job s).2 = some r →
        (readOn p words job (s.setTurn p (.reading job))).1.respond p tag r
          = (readOn p words job s).1.respond p tag r) := by
  unfold readOn
  rw [State.readWords_setTurn p _ _ s job (fun _ hq => State.waits_setReading h ht job hq)]
  rcases State.readWords p (min words job.left) s job with ⟨s1, j1, e⟩
  cases e <;> simp [answering, State.readReply_setTurn]

/-- A good word that is granted, before others: what is left is a read by one word less. -/
theorem readOn_took {s : State} {p : Port} {words o : Nat} {job : ReadJob} (hw : 1 ≤ words)
    (hl : 1 ≤ job.left) (hn : s.nextOffset p job = some o)
    (hg : s.grants (.portEngine p) = true) (hx : oddOnes (s.versionWord job.pages o) = true) :
    readOn p words job s
      = readOn p (words - 1) (job.took (valueOf (s.versionWord job.pages o)))
        (({ s with arbiter := Requestor.next (.portEngine p) } : State).stepSlot p job) := by
  have hm : min words job.left = min (words - 1) (job.left - 1) + 1 := by omega
  unfold readOn
  rw [hm]
  simp only [State.readWords, hn, State.readGranted_eq, hg, hx, if_true]
  rfl

/-- A FETCH or PEEK that has fixed its version goes on with its words. -/
theorem inTurns_reading {s : State} {p : Port} {req : Request} {tag : Byte} {job : ReadJob}
    (words : Nat) (start : Owner) (h : s.asksAt p req tag (.reading job)) :
    inTurns p words start s = readOn p words job s := by
  unfold inTurns
  rw [State.turn_asks h]

/-- A FETCH or PEEK that has just come begins. -/
theorem inTurns_start {s : State} {p : Port} {req : Request} {tag : Byte} (words : Nat)
    (start : Owner) (h : s.asks p req tag) : inTurns p words start s = start s := by
  unfold inTurns
  rw [State.turn_asks h]

/-- A request whose owner goes on as `go` does on s1 does what the same request does where it stands there
already, under an owner (a command by fewer words) that goes on as `go` does, if what `go` does there is the
same. -/
theorem State.serve_begins {s s1 : State} {p : Port} {req : Request} {tag : Byte}
    {owner later go : Owner}
    {turn turn0 turn1 : Turn} (h : s.asksAt p req tag turn0) (ha : s.admits p)
    (hb : owner (s.leaseRenewed p) = go s1) (h1 : s1.asksAt p req tag turn1) (ha1 : s1.admits p)
    (hl : s1.leaseRenewed p = s1) (hg : later (s1.setTurn p turn) = go (s1.setTurn p turn))
    (hs : (go (s1.setTurn p turn)).2 = (go s1).2
      ∧ ((go s1).2 = none → (go (s1.setTurn p turn)).1 = (go s1).1)
      ∧ (∀ r tag, (go s1).2 = some r →
        (go (s1.setTurn p turn)).1.respond p tag r = (go s1).1.respond p tag r)) :
    s.serve p req owner = (s1.setTurn p turn).serve p req later := by
  have hi : (s1.engine p).inProgress = some { tag := tag, request := req, turn := turn1 } := h1
  have hx : (s1.setTurn p turn).asksAt p req tag turn := by
    simp [State.asksAt, State.setTurn, hi]
  have hy : (s1.setTurn p turn).admits p := ha1
  have hlr : (s1.setTurn p turn).leaseRenewed p = s1.setTurn p turn := by
    conv_rhs => rw [← hl]
    rfl
  obtain ⟨e1, e2, e3⟩ := hs
  rcases hr : go s1 with ⟨t, o⟩
  cases o with
  | none =>
    rw [State.serve_waits (t := t) h ha (by rw [hb, hr]), State.serve_waits (t := t) hx hy]
    rw [hlr, hg]
    exact Prod.ext (by rw [e2 (by rw [hr]), hr]) (by rw [e1, hr])
  | some r =>
    rw [State.serve_admitted (t := t) (r := r) h ha (by rw [hb, hr]),
      State.serve_admitted (r := r) hx hy (by
        rw [hlr, hg]
        exact Prod.ext rfl (by rw [e1, hr]))]
    rw [e3 r tag (by rw [hr]), hr]

/-! ## A WRITE in its turns -/

/-- A request that is no read in its turns becomes a WRITE in turns: no requestor but the staging engine
waits otherwise. -/
theorem State.waits_setWriting {s : State} {p : Port} {req : Request} {tag : Byte} {turn : Turn}
    (h : s.asksAt p req tag turn) (ht : ∀ j, turn ≠ .reading j) (job : WriteJob) {q : Requestor}
    (hq : q ≠ .staging) :
    (s.setTurn p (.writing job)).waits q = s.waits q := by
  by_cases hp : q = .portEngine p
  · subst hp
    simp only [State.waits, State.readWaits, State.turn_setTurn_self _ h, State.turn_asks h]
    cases turn with
    | reading j => exact absurd rfl (ht j)
    | start | held | pinned _ _ _ _ | writing _ => rfl
  · exact State.waits_setTurn s p _ hp hq

/-- The words written do not depend on where the request stands, so long as the others wait as before. -/
theorem State.writeOn_setTurn (p : Port) (turn : Turn) (ws : List Word) :
    ∀ (s : State) (job : WriteJob),
      (∀ q, q ≠ .staging → (s.setTurn p turn).waits q = s.waits q) →
      State.writeOn ws (s.setTurn p turn) job
        = ((State.writeOn ws s job).1.setTurn p turn, (State.writeOn ws s job).2) := by
  induction ws with
  | nil =>
    intros
    rfl
  | cons w ws ih =>
    intro s job h
    have hg : (s.setTurn p turn).grants .staging = s.grants .staging := State.grants_congr rfl h
    have hw : (s.setTurn p turn).writeGranted .staging job.pages job.offset w
        = (s.writeGranted .staging job.pages job.offset w).setTurn p turn := by
      simp only [State.writeGranted_eq]
      rfl
    unfold State.writeOn
    rw [hg, hw]
    split
    · refine ih _ _ fun q hq => ?_
      rw [← hw]
      simp only [State.writeGranted_eq]
      exact h q hq
    · rfl

/-- What a WRITE answers, and the state it leaves, do not depend on where its request stood. -/
theorem writeTurn_setTurn {s : State} {p : Port} {req : Request} {tag : Byte} {turn : Turn}
    (h : s.asksAt p req tag turn) (ht : ∀ j, turn ≠ .reading j) (job : WriteJob) :
    (writeTurn p job (s.setTurn p (.writing job))).2 = (writeTurn p job s).2
      ∧ ((writeTurn p job s).2 = none →
        (writeTurn p job (s.setTurn p (.writing job))).1 = (writeTurn p job s).1)
      ∧ (∀ r tag, (writeTurn p job s).2 = some r →
        (writeTurn p job (s.setTurn p (.writing job))).1.respond p tag r
          = (writeTurn p job s).1.respond p tag r) := by
  unfold writeTurn
  rw [State.writeOn_setTurn p _ _ s job (fun _ hq => State.waits_setWriting h ht job hq)]
  rcases State.writeOn job.words s job with ⟨s1, j1⟩
  cases hw : j1.words <;> simp [answering, hw]

/-- A WRITE beside which no other requestor waits writes all its words. -/
theorem State.writeOn_alone (ws : List Word) :
    ∀ (s : State) (job : WriteJob), (∀ q, s.waits q = true → q = .staging) →
      State.writeOn ws s job
        = (s.writeWords .staging job.pages job.offset ws,
            { job with offset := job.offset + ws.length, words := [] }) := by
  induction ws with
  | nil =>
    intro s job _
    rfl
  | cons w ws ih =>
    intro s job h
    have hg : s.grants .staging = true :=
      State.grants_alone fun q hq => h q ((State.mem_waiting s q).mp hq)
    unfold State.writeOn
    rw [if_pos hg, ih]
    · simp only [State.writeWords, List.length_cons]
      refine Prod.ext rfl ?_
      simp only [WriteJob.mk.injEq, true_and, and_true]
      omega
    · simp only [State.writeGranted_eq]
      exact h

end Sys2Proof.Machine
end

