-- ==== Sys2Proof/Tests/Slice0.lean ====
section
/-! SUPPORT. Tests: ill-formed commands the check refuses, bytes written out from the spec, single steps
on small states, and a witness for the hypotheses of every statement that has some. Each theorem is
elaborated in turn (one thread), so that the file needs little memory. -/

set_option Elab.async false

namespace Sys2Proof.Tests

open Sys2Proof.Machine

/-! ## Small states -/

/-- Table 0: two pages, written by P0, read by P1, persistent. -/
def entry : TableEntry :=
  { defined := true, maxPages := 2, writer := some 0, readers := 2#4, persistent := true }

/-- A charter with that table, every port enabled with the maintenance right, a scrub period of 5 s. -/
def charter : Charter :=
  { sequence := 7, scrubPeriod := 5
    tables := (Vector.replicate 32 TableEntry.default).set 0 entry
    ports := Vector.replicate 4 { enabled := true, maintenance := true, maxLease := 6000 } }

/-- An open session. -/
def session (n : Nat) : Session :=
  { isOpen := true, number := n, leasePeriod := 100, leaseTimer := some 100
    departure := .powerOn, mask := 0xFF }

/-- A version of three words on one page, undamaged. -/
def version (n pins page : Nat) : Version :=
  { number := n, length := 3, pages := [page], check := some 0x1234, pins := pins
    damage := .clear, faulty := [] }

/-- A STAGED version of session 1 on page 2. -/
def staged (n : Nat) (sub : SubState) : Staged :=
  { version := { version n 0 2 with check := none }, sub := sub, session := 1 }

/-- A record of table 0. -/
def record (current : Option Version) (st : Option Staged) (retiring : Option Version) :
    TableRecord :=
  { entry := entry, current := current, staged := st, retiring := retiring, nextVersion := 5
    loadResult := .loaded }

/-- Six sound words at 0 to 2 and 512 to 514, and a word with a parity error at 256. -/
def words : Memory :=
  [(0, storedOf 10), (1, storedOf 11), (2, storedOf 12), (256, 0), (512, storedOf 20),
    (513, storedOf 21), (514, storedOf 22)]

/-- In SERVICE, supply OK, P0 open with session 1, P1 closed, table 0 as given. -/
def served (r : TableRecord) : State :=
  { State.reset with
    part := { PartController.fresh with state := .service, charter := charter }
    supply := .ok
    sessions := (Vector.replicate 4 Session.fresh).set 0 (session 1)
    tables := (Vector.replicate 32 (TableRecord.fresh TableEntry.default)).set 0 r
    mem := words
    freePool := (List.range 128).drop 3 }

/-- One CURRENT version 1 with a pin, on page 0. -/
def plain : State := served (record (some (version 1 1 0)) none none)

/-- A CURRENT version 2 on page 0, a RETIRING version 1 on page 1 with one pin. -/
def swapped : State := served (record (some (version 2 0 0)) none (some (version 1 1 1)))

/-- A context on table 0. -/
def binding (n offset : Nat) (mode : Mode) (follow : Bool) : Binding :=
  { table := 0, version := n, offset := offset, mode := mode, stride := 1, follow := follow }

/-- The state with a request in progress on P0, its tag 0x5A. -/
def asking (s : State) (r : Request) : State :=
  s.setEngine 0 { s.engine 0 with inProgress := some { tag := 0x5A, request := r } }

/-- The state with P0's request in progress at a place. -/
def askingAt (s : State) (r : Request) (turn : Turn) : State :=
  s.setEngine 0
    { s.engine 0 with inProgress := some { tag := 0x5A, request := r, turn := turn } }

/-- The state with P0's C0 bound. -/
def bound (s : State) (b : Binding) : State := s.setCursor 0 0 (some b)

/-- The state with an outstanding session end of P0, as its session leaves it. -/
def ending (s : State) : State := s.endSession 0 .closed

/-- The state in MAINTENANCE, P0's. -/
def maintained (s : State) : State :=
  { s with
    part := { s.part with
      state := .maintenance, maintPort := some 0, working := some charter } }

/-- The state with an image store queue and an operation in flight. -/
def queued (s : State) (op : QueueOp) (work : ImageWork) : State :=
  { s with imageQueue := [{ op := op, port := 0, session := 1 }], imageWork := work }

/-- The state with the work list of table 0 alone. -/
def working (s : State) (w : Option HeadWork) : State := { s with workList := [0], headWork := w }

/-- A CURRENT version 2 on page 0 and a STAGED version 3 of this sub-state, at the head of the work
list with this progress. -/
def filling (sub : SubState) (w : Option HeadWork) : State :=
  working (served (record (some (version 2 0 0)) (some (staged 3 sub)) none)) w

/-- Progress at an offset, from this source. -/
def progress (offset : Nat) (source : Option Nat) : HeadWork :=
  { offset := offset, check := checkStart, source := source }

/-- The part in LOADING at a phase. -/
def loading (s : State) (phase : LoadPhase) : State :=
  { s with part := { s.part with state := .loading, loading := phase } }

/-- What a step leaves. -/
def after (i : Instr) (s : State) : State :=
  match step (s.withCommand i) with
  | .next t => t
  | .fault _ => s
  | .refused _ => s

/-! ## Ill-formed commands -/

theorem test_ill_formed_commands :
    (Instr.write 0 0 0 []).wellFormed = false
      ∧ (Instr.write 0 0 0 (List.replicate 17 0)).wellFormed = false
      ∧ (Instr.sessionEndSaveStacks 0 [4]).wellFormed = false
      ∧ (Instr.parityReport 0 0 0).wellFormed = false
      ∧ (Instr.parityReport 0 65536 0).wellFormed = false
      ∧ (Instr.parityReport 0 1 16).wellFormed = false
      ∧ (Instr.checkReport 0 0).wellFormed = false
      ∧ (Instr.resetRelease 2650).wellFormed = false
      ∧ (Instr.loadTable [(4096, 0)]).wellFormed = false
      ∧ (Request.write 0 0 []).wellFormed = false
      ∧ (Request.write 0 0 (List.replicate 17 0)).wellFormed = false := by decide

theorem test_no_word_spells_a_command (n w : Nat) : decodeTableWord n w = none := rfl

/-! ## Bytes of the wire -/

/-- A NOP with tag 0x5A is 01 5A 00 E5 (section 11.5). -/
theorem test_nop_frame : Request.nop.frame 0x5A = [0x01, 0x5A, 0x00, 0xE5] := by decide +kernel

theorem test_nop_frame_is_taken : judgeFrame [0x01, 0x5A, 0x00, 0xE5] = .taken 0x5A .nop := by
  decide +kernel

theorem test_wrong_crc : judgeFrame [0x01, 0x5A, 0x00, 0xE4] = .error 0x5A := by decide +kernel

/-- Its response with status OK ends in 0x60. -/
theorem test_nop_response :
    ({ tag := 0x5A, status := .ok, flags := 0, data := [] } : Response).bytes
      = [0x5A, 0x00, 0x00, 0x00, 0x60] := by decide +kernel

/-- SEEK: code 0x22, slot, offset high byte first. -/
theorem test_seek_body :
    (Request.seek 1 0x0102).body 9 = [0x22, 0x09, 0x03, 0x01, 0x01, 0x02] := by decide +kernel

theorem test_unknown_code : decodeRequest 0x27 [0] = none := by decide

/-! ## Single steps -/

theorem test_empty_queue_idles : step State.reset = .next State.reset := rfl

theorem test_nop_step :
    ((after (.nop 0) (asking plain .nop)).engine 0).buffer
      = { tag := 0x5A, status := .ok, flags := 0, data := [] } := by decide +kernel

/-- A request's row acts on that request alone. -/
theorem test_other_request_unmoved :
    ((after (.close 0) (asking plain .nop)).session 0).isOpen = true := by decide +kernel

theorem test_open_gives_number_after_255 :
    ((after (.openSession 1 10)
      ((plain.setSession 1 { Session.fresh with number := 255 }).setEngine 1
        { PortEngine.fresh with inProgress := some { tag := 0, request := .openSession 10 } })).session
          1).number = 1 := by decide +kernel

theorem test_fetch_words :
    ((after (.fetch 0 0 2) (asking (bound plain (binding 1 1 .linear false)) (.fetch 0 2))).engine
      0).buffer.data = [0, 1, 0, 3, 0, 11, 0, 12] := by decide +kernel

theorem test_fetch_reaches_end :
    ((after (.fetch 0 0 2) (asking (bound plain (binding 1 1 .linear false)) (.fetch 0 2))).engine
      0).buffer.flags = 1 := by decide +kernel

/-- A ring of three words read from its last word. -/
theorem test_fetch_wraps :
    ((after (.fetch 0 0 2) (asking (bound plain (binding 1 2 .ring false)) (.fetch 0 2))).engine
      0).buffer.data = [0, 1, 0, 1, 0, 12, 0, 10] := by decide +kernel

theorem test_page_step_in_short_page : Mode.step .page 299 1 300 = 256 := by decide

theorem test_unbind_retires :
    (((after (.unbind 0 0) (asking (bound swapped (binding 1 0 .ring false)) (.unbind 0))).table
      0).retiring, (after (.unbind 0 0)
        (asking (bound swapped (binding 1 0 .ring false)) (.unbind 0))).freePool.head?)
      = (none, some 1) := by decide +kernel

theorem test_stage_takes_lowest_page :
    ((after (.stage 0 0 256 0 0) (asking plain (.stage 0 256 0 0))).table 0).staged.map
      (fun st => (st.version.number, st.version.pages)) = some (5, [3]) := by decide +kernel

theorem test_write_stores_odd_ones :
    Memory.read (after (.write 0 0 1 [0xFFFF])
      (asking (served (record none (some (staged 3 .opened)) none)) (.write 0 1 [0xFFFF]))).mem 513
        = some 0x1FFFF := by decide +kernel

/-- Beside a fill that waits, a FETCH reads one word and waits; the fill has the next word (R15). -/
theorem test_fetch_takes_turns :
    let s := after (.fetch 0 0 2)
      (asking (bound (filling (.filling .zero) (some (progress 0 none))) (binding 2 1 .linear false))
        (.fetch 0 2))
    (s.arbiter, s.grants (.portEngine 0), (s.engine 0).inProgress.isSome,
        (after (.fetch 0 0 2) (after .fillWord s)).engine 0 |>.buffer.data)
      = (.portEngine 1, false, true, [0, 2, 0, 3, 0, 11, 0, 12]) := by decide +kernel

/-- A FETCH of two words stopped after its first (R55): a swap and then a parity report on the version come
between. P0 hears NEW_VERSION before DAMAGE, and the response carries DAMAGED and no STALE. -/
theorem test_fetch_lets_a_swap_between_words :
    let s := after (.fetch 0 0 2 (words := 1)) (asking (bound (served (record
      (some (version 1 1 0)) (some (staged 2 .opened)) none)) (binding 1 1 .linear false)) (.fetch 0 2))
    let t := after (.fetch 0 0 2) (after (.parityReport 0 1 0) (s.swap 0))
    (s.waiting, (s.engine 0).inProgress.isSome, (t.queue 0).entries.map (·.kind),
        (t.engine 0).buffer.flags, (t.engine 0).buffer.data)
      = ([.portEngine 0], true, [.newVersion, .damage], 9, [0, 1, 0, 3, 0, 11, 0, 12]) := by
  decide +kernel

/-- A BIND of a slot bound to the same version: between its turns the count is one higher, and the slot is
as it was (R28, R44). -/
theorem test_bind_counts_its_pin_first :
    let s := asking (bound plain (binding 1 0 .ring false)) (.bind 0 0 2 1 1 0)
    let t := after (.bind 0 0 0 2 1 1 0) s
    let u := after (.bind 0 0 0 2 1 1 0) t
    ((t.table 0).current.map (·.pins), t.cursor 0 0, (u.table 0).current.map (·.pins), u.cursor 0 0)
      = (some 2, some (binding 1 0 .ring false), some 1, some (binding 1 2 .linear false)) := by
  decide +kernel

/-- The state with P1's session open too, and its BIND of table 0 standing at its pin. -/
def beside (s : State) : State :=
  (s.setSession 1 (s.session 0)).setEngine 1
    { s.engine 1 with
      inProgress := some
        { tag := 1, request := .bind 0 0 0 2 1 0
          turn := .pinned 0 (binding 1 0 .linear false) 3 false } }

/-- Data out of a frame, sampled at the rising edges: the response 5A 00 00 00 60 with its top bits first, and
ones after it (R168, R171). -/
theorem test_data_out_bits :
    let s := after (.frameOpen 0) (asking plain .nop |> after (.nop 0))
    let bits := (List.range 48).map (fun k => (s.sdoBit 0 k).getD false)
    (bytesOfBits bits, bits.take 8, plain.sdoBit 0 0)
      = ([0x5A, 0, 0, 0, 0x60, 0xFF], [false, true, false, true, true, false, true, false], none) := by
  decide +kernel

/-- A BIND waits while another port's stands at its pin on the same version, and goes on after it: no count
holds two pins beyond its holders (R28). -/
theorem test_bind_waits_for_the_pin_of_another :
    let s := after (.bind 0 1 0 1 2 1 0) (beside (asking plain (.bind 1 0 1 2 1 0)))
    let t := after (.bind 0 1 0 1 2 1 0) (after (.bind 1 0 0 0 2 1 0) s)
    ((s.table 0).current.map (·.pins), s.turn 0, (t.table 0).current.map (·.pins))
      = (some 1, .held, some 2) := by decide +kernel

/-- A lease does not expire while a request of its session is in progress past its gate, and may expire
before it has reached the gate, which then refuses it (R136, R137). -/
theorem test_lease_expires_only_before_the_gate :
    let early := after (.leaseExpiry 0) (asking plain (.fetch 0 1))
    let late := after (.leaseExpiry 0) (after (.fetch 0 0 1 0)
      (asking (bound plain (binding 1 0 .ring false)) (.fetch 0 1)))
    ((early.session 0).isOpen, ((after (.fetch 0 0 1) early).engine 0).buffer.status,
        (late.session 0).isOpen, ((after (.fetch 0 0 1) late).engine 0).buffer.status)
      = (false, .noSession, true, .ok) := by decide +kernel

/-- A swap between the two turns of a BIND out of range: the version pinned is RETIRING, and is retired
when the BIND takes its pin back (R27, R44). -/
theorem test_bind_retires_between_turns :
    let r := Request.bind 0 0 3 2 1 0
    let s := after (.bind 0 0 0 3 2 1 0)
      (asking (served (record (some (version 1 0 0)) (some (staged 2 .opened)) none)) r)
    (((s.table 0).current.map (·.pins)), (((s.swap 0).table 0).retiring.map (·.number)),
        ((after (.bind 0 0 0 3 2 1 0) (s.swap 0)).table 0).retiring,
        ((after (.bind 0 0 0 3 2 1 0) (s.swap 0)).engine 0).buffer.status)
      = (some 1, some 1, none, .range) := by decide +kernel

/-- A chip select low since before LOADING, and one low through a charter restart, is broken after its 5 ms,
and once only (R173). -/
theorem test_port_break_of_an_old_low_period :
    let s := after (.resetRelease 3000) (after (.frameOpen 0) State.reset)
    let t := (after (.frameOpen 0) plain).charterRestart
    ((s.engine 0).rx, ((after (.portBreak 0) s).engine 0).buffer.status,
        (t.engine 0).rx, ((after (.portBreak 0) t).engine 0).buffer.status,
        ((after (.portBreak 0) t).charterRestart.engine 0).breakTimer)
      = (.discarding, .noSession, .discarding, .noSession, false) := by decide +kernel

/-- The last good word is fed before the comparison, and stands in the visit with the report (R106,
R107). -/
theorem test_mismatch_keeps_the_recomputed_value :
    let s := after .scrubWord { plain with scrub :=
      { Scrubber.fresh with
        running := true
        visit := some
          { table := 0, number := 1, length := 3, pages := [0], check := some 0x1234, offset := 2
            register := 0 } } }
    (s.reports, s.scrub.visit.map (fun v => (v.offset, v.register)))
      = ([.check 0 1], some (3, checkFeed 0 12)) := by decide +kernel

theorem test_reset_release_levels :
    (after (.resetRelease 2651) State.reset).supply = .low
      ∧ (after (.resetRelease 2950) State.reset).supply = .ok
      ∧ (after (.resetRelease 2650) State.reset).part.state = .reset := by decide +kernel

theorem test_no_charter_gives_uncharted_part :
    (after (.loadTable []) { loading State.reset (.table 31) with
      part := { (loading State.reset (.table 31)).part with charterAbsent := true } }).part.state
        = .unchartered := by decide +kernel

/-! ## Witnesses: hypotheses of the statements, met by small states -/

theorem witness_RequestFramesDecode :
    (Request.write 0 0 [1]).wellFormed = true
      ∧ (Request.write 0 0 (List.replicate 16 0)).wellFormed = true := by decide

/-- P0's engine with a frame open. -/
def receiving (s : State) (metPending : Bool) : State :=
  s.setEngine 0 { s.engine 0 with
    csLow := true, rx := .receiving, metPending := metPending, breakTimer := true }

theorem witness_FramesOpenAndEnd :
    (plain.part.state ≠ .reset ∧ (plain.engine 0).rx = .idle ∧ (plain.engine 0).inProgress = none)
      ∧ ((plain.setEngine 0 { plain.engine 0 with rx := .discarding }).engine 0).rx = .discarding
      ∧ (asking plain .nop).part.state ≠ .reset ∧ ((asking plain .nop).engine 0).rx = .idle
      ∧ ((asking plain .nop).engine 0).inProgress = some { tag := 0x5A, request := .nop }
      ∧ ((receiving plain true).engine 0).rx = .receiving
      ∧ ((receiving plain true).engine 0).metPending = true
      ∧ (plain.engine 0).shiftOut = none ∧ plain.sdoByte 0 0 = none
      ∧ (after (.frameOpen 0) plain).sdoByte 0 4 = some (crc8 [0, 7, 0, 0])
      ∧ ((after (.frameOpen 0) plain).engine 0).shiftOut = some (plain.engine 0).buffer
      ∧ ([0, 7, 0, 0] : List Byte)[3]? = some 0 ∧ ([0, 7, 0, 0] : List Byte).length < 5 := by
  decide +kernel

/-- The frames: whole, and with each error: a length of 41, a body one byte short, a wrong CRC, an
unknown code. -/
theorem witness_FrameIsJudgedAtItsRise :
    ((receiving plain false).part.state ≠ .reset
        ∧ ((receiving plain false).engine 0).rx = .receiving
        ∧ ((receiving plain false).engine 0).metPending = false)
      ∧ Request.nop.wellFormed = true ∧ ([true, true, true, true, true, true, true] : List Bool).length < 8
      ∧ 40 < (0x29 : Byte).toNat
      ∧ ([1, 2] : List Byte).length < (2 : Byte).toNat + 1
      ∧ crc8 [0x01, 0x5A, 0x00] ≠ 0xE4
      ∧ (0x28 : Byte).toNat ≤ 40 ∧ decodeRequest 0x27 [0] = none
      ∧ crc8 [0x27, 0x5A, 0x01, 0x00] = ([0x00, crc8 [0x27, 0x5A, 0x01, 0x00]] : List Byte).getD 1 0 := by
  decide +kernel

theorem witness_PortBreakEndsFrameAndSession :
    (plain.engine 0).breakTimer = false
      ∧ (((receiving plain false).charterRestart).engine 0).breakTimer = true
      ∧ ((receiving plain false).engine 0).breakTimer = true
      ∧ ((receiving plain false).engine 0).inProgress = none
      ∧ ((receiving plain false).session 0).isOpen = true
      ∧ ((receiving (plain.setSession 0 Session.fresh) false).session 0).isOpen = false := by
  decide +kernel

theorem witness_GateAndMaintenanceRefuseRequests :
    (Instr.save 0 0).asRequest = some (0, .save 0) ∧ (asking plain (.save 0)).asks 0 (.save 0) 0x5A
      ∧ (asking plain (.save 0)).part.state ≠ .reset ∧ Request.save 0 ≠ .status
      ∧ (loading (asking plain (.save 0)) .charter).part.state = .loading
      ∧ ((asking (plain.setSession 0 Session.fresh) (.save 0)).session 0).isOpen = false
      ∧ (Request.save 0).usesTables = true
      ∧ (maintained (asking plain (.save 0))).part.state = .maintenance
      ∧ ((maintained (asking plain (.save 0))).session 0).isOpen = true := by decide +kernel

theorem witness_StatusAndNopAnswer :
    (asking plain .status).asks 0 .status 0x5A ∧ (asking plain .status).part.state ≠ .reset
      ∧ (asking plain .nop).asks 0 .nop 0x5A ∧ (asking plain .nop).admits 0 := by decide +kernel

/-- P1, closed, asks for a session under an entry. -/
def opening (e : PortEntry) (lease : Word) : State :=
  { plain with
    part := { plain.part with charter := { charter with ports := charter.ports.set 1 e } }
    engines := plain.engines.set 1
      { PortEngine.fresh with inProgress := some { tag := 0, request := .openSession lease } } }

/-- The port entry that lets a lease pass. -/
def wide : PortEntry := { enabled := true, maintenance := true, maxLease := 6000 }

/-- Each check at the edge of its range: leases 9, 10, 6000 and 6001, and one above the port's maximum;
session numbers 254 and 255. -/
theorem witness_OpenIsCheckedInOrder :
    ((opening wide 10).asks 1 (.openSession 10) 0 ∧ (opening wide 10).part.state = .service
        ∧ ((opening wide 10).part.charter.ports[(1 : Port)]).enabled = true
        ∧ ((opening wide 10).session 1).isOpen = false ∧ (opening wide 10).endsOf 1 = []
        ∧ ((opening wide 6000).part.charter.ports[(1 : Port)]).maxLease = 6000)
      ∧ (9 : Word).toNat < 10 ∧ (10 : Word).toNat = 10 ∧ (6000 : Word).toNat = 6000
      ∧ 6000 < (6001 : Word).toNat
      ∧ ((opening { wide with maxLease := 10 } 11).part.charter.ports[(1 : Port)]).maxLease
          < (11 : Word).toNat
      ∧ ((opening { wide with enabled := false } 10).part.charter.ports[(1 : Port)]).enabled = false
      ∧ ((maintained (opening wide 10)).part.state = .maintenance
          ∧ (maintained (opening wide 10)).part.maintPort ≠ some 1)
      ∧ (loading (opening wide 10) .charter).part.state = .loading
      ∧ ((opening wide 10).setSession 1 (session 255)).asks 1 (.openSession 10) 0
      ∧ (((opening wide 10).setSession 1 (session 255)).session 1).isOpen = true
      ∧ ((session 254).number < 255 ∧ ¬(session 255).number < 255) := by decide +kernel

theorem witness_CloseAndLeaseExpiryEndTheSession :
    ((asking plain .close).asks 0 .close 0x5A ∧ (asking plain .close).admits 0)
      ∧ (plain.session 0).isOpen = true ∧ (plain.session 0).leaseTimer.isSome = true
      ∧ (plain.engine 0).inProgress = none
      ∧ (askingAt plain (.write 0 1 [7, 8]) .held).asksAt 0 (.write 0 1 [7, 8]) 0x5A .held
      ∧ Turn.held ≠ .start := by decide +kernel

/-- Two slots and one saved context of P0 on the RETIRING version, its only three pins. -/
def holding : State :=
  ending (({ (bound (served (record (some (version 2 1 0)) none (some (version 1 3 1))))
      (binding 1 0 .ring false)) with
    saveStacks := (Vector.replicate 4 []).set 0 [some (binding 1 0 .ring false)] } :
      State).setCursor 0 1 (some (binding 1 0 .ring false)))

theorem witness_SessionEndEmptiesThePort :
    EndBlock.eventUnit ∈ holding.endsOf 0 ∧ EndBlock.cursorFile ∈ holding.endsOf 0
      ∧ EndBlock.saveStacks ∈ holding.endsOf 0
      ∧ (holding.table 0).current = some (version 2 1 0)
      ∧ (holding.table 0).retiring = some (version 1 3 1)
      ∧ (version 1 3 1).number ≠ (version 2 1 0).number
      ∧ holding.slotsOn 0 0 1 = 2 ∧ holding.slotsOn 0 0 1 ≤ (version 1 3 1).pins
      ∧ holding.savedOn 0 0 1 = 1 ∧ holding.savedOn 0 0 1 ≤ (version 1 3 1).pins := by
  decide +kernel

/-- P0's session ended with a fill at the head of the work list and a STORE read of table 1 in flight. -/
def stopping : State :=
  ending { queued (filling (.filling .zero) (some { offset := 1, check := 0, source := none }))
      (.storeRead 1) (.selecting 1 []) with
    tables := (filling (.filling .zero) none).tables.set 1
      (record none (some (staged 4 (.filling .store))) none) }

theorem witness_SessionEndStopsTheStagedWork :
    EndBlock.stagingEngine ∈ stopping.endsOf 0 ∧ stopping.workList.head? = some 0
      ∧ (stopping.table 0).staged.any (fun st => st.sub.listed) = true
      ∧ stopping.headWork.isSome = true ∧ stopping.imageWork ≠ .idle
      ∧ stopping.imageQueue = { op := .storeRead 1, port := 0, session := 1 } :: []
      ∧ (stopping.table 1).staged.any (fun st => st.sub = .filling .store) = true
      ∧ ({ stopping with imageWork := .idle } : State).imageWork = .idle := by decide +kernel

theorem witness_SessionEndStopsTheWork :
    (EndBlock.stagingEngine ∈ (ending plain).endsOf 0
        ∧ ((ending plain).table 0).entry.writer = some 0
        ∧ ((ending plain).table 1).entry.writer ≠ some 0)
      ∧ EndBlock.imageStore ∈ (ending plain).endsOf 0 ∧ (ending plain).imageWork = .idle
      ∧ (queued (ending plain) (.storeRead 0) (.selecting 0 [])).imageWork ≠ .idle
      ∧ (queued (ending plain) (.storeRead 0) (.selecting 0 [])).imageQueue
          = [{ op := .storeRead 0, port := 0, session := 1 }]
      ∧ QueueOp.persist 0 ≠ .storeRead 0 := by decide +kernel

theorem witness_MaskAndEventsServe :
    ((asking plain (.mask 3)).asks 0 (.mask 3) 0x5A ∧ (asking plain (.mask 3)).admits 0)
      ∧ ((asking plain (.events 1)).asks 0 (.events 1) 0x5A ∧ 1 ≤ (1 : Byte).toNat
          ∧ (4 : Byte).toNat ≤ 4)
      ∧ (0 : Byte).toNat = 0 ∧ 4 < (5 : Byte).toNat := by decide +kernel

/-- An event, and queues that match it, do not, and are full. -/
def event (k : EventKind) : Event :=
  { kind := k, table := some 0, version := 1, result := .ok, extra := 0 }

theorem witness_EventEntryTakesFiveSteps :
    (plain.session 1).isOpen = false ∧ (plain.session 0).isOpen = true
      ∧ (plain.session 0).number = 1 ∧ (plain.session 0).mask.getLsbD 0 = true
      ∧ ((plain.setSession 0 { session 1 with mask := 0xFE }).session 0).mask.getLsbD 0 = false
      ∧ ((plain.setQueue 0 { entries := [event .newVersion], overrun := false }).queue 0).entries
          = [] ++ event .newVersion :: []
      ∧ (∀ x ∈ List.replicate 7 (event .retired), x.kind ≠ .newVersion)
      ∧ (List.replicate 7 (event .retired)).length < 8
      ∧ 8 ≤ (List.replicate 8 (event .retired)).length := by decide +kernel

theorem witness_TableInfoReportsTheRecord :
    (asking plain (.tableInfo 31)).asks 0 (.tableInfo 31) 0x5A
      ∧ (asking plain (.tableInfo 31)).admits 0 ∧ (31 : Byte).toNat = (31 : TableId).val
      ∧ 31 < (32 : Byte).toNat := by decide +kernel

/-- All three roles, under numbers 2, 1 and 3. -/
def full : State :=
  served (record (some (version 2 0 0)) (some (staged 3 .opened)) (some (version 1 1 1)))

/-- Every kind of report on its way, with the visit that sent it. -/
def reported (r : Report) : State :=
  { full with
    reports := [r]
    scrub := { Scrubber.fresh with
      running := true
      visit := some
        { table := 0, number := 2, length := 3, pages := [0], check := none, offset := 2
          register := 0 } } }

theorem witness_ParityReportsAreRecorded :
    (.parity 0 2 0 ∈ (reported (.parity 0 2 0)).reports
        ∧ (reported (.parity 0 2 0)).scrub.visit.isSome = true)
      ∧ full.reports = [] ∧ full.scrub.visit = none
      ∧ (full.table 0).current = some (version 2 0 0) ∧ (full.table 0).retiring = some (version 1 1 1)
      ∧ (full.table 0).staged = some (staged 3 .opened)
      ∧ (∀ w ∈ (full.table 0).current, w.number ≠ 1)
      ∧ (∀ w ∈ (full.table 0).current, w.number ≠ 3)
      ∧ (∀ w ∈ (full.table 0).retiring, w.number ≠ 3)
      ∧ (∀ w ∈ (full.table 0).current, w.number ≠ 4)
      ∧ (∀ w ∈ (full.table 0).retiring, w.number ≠ 4)
      ∧ (∀ w ∈ (full.table 0).staged, w.version.number ≠ 4) := by decide +kernel

theorem witness_CheckReportsAreRecorded :
    .check 0 2 ∈ (reported (.check 0 2)).reports ∧ (full.table 0).current = some (version 2 0 0) ∧ (version 2 0 0).number = 2
      ∧ (version 2 0 0).damage = .clear
      ∧ (∀ w ∈ (full.table 0).current, w.number = 1 → w.damage ≠ .clear) := by decide +kernel

theorem witness_UnpinRetiresAtCountZero :
    (∀ w ∈ (swapped.table 0).current, w.number ≠ 1)
      ∧ (swapped.table 0).retiring = some (version 1 1 1) ∧ (version 1 1 1).pins = 1
      ∧ 1 < (version 1 2 1).pins
      ∧ (∃ st limit, (record none (some (staged 3 (.held 2))) none).staged = some st
          ∧ st.sub = .held limit) := by
  refine ⟨by decide +kernel, by decide +kernel, rfl, by decide, staged 3 (.held 2), 2, rfl, rfl⟩

theorem witness_PagesMoveWhole :
    plain.freePool.Pairwise (· < ·) ∧ (plain.freePool ++ [0, 1]).Nodup
      ∧ 125 ≤ plain.freePool.length ∧ plain.freePool.length < 126 := by decide +kernel

theorem witness_SwapReplacesTheCurrentVersion :
    ((served (record (some (version 1 1 0)) (some (staged 2 .opened)) none)).table 0).staged
        = some (staged 2 .opened)
      ∧ ((served (record (some (version 1 1 0)) (some (staged 2 .opened)) none)).table 0).retiring
        = none := by decide +kernel

/-! ### Cursors and save stacks -/

/-- BIND at the last offset, and at the length. -/
theorem witness_BindPinsTheCurrentVersion :
    (asking plain (.bind 3 0 2 2 0xF0 1)).asks 0 (.bind 3 0 2 2 0xF0 1) 0x5A
      ∧ (asking plain (.bind 3 0 2 2 0xF0 1)).servesTables 0 ∧ (3 : Byte).toNat = (3 : SlotId).val
      ∧ (0 : Byte).toNat = (0 : TableId).val ∧ (2 : Word).toNat ≤ 4095 ∧ (2 : Byte) = Mode.ring.code
      ∧ (0xF0 : Byte).toInt = -16 ∧ (16 : Byte).toInt ≤ 16 ∧ (0xF0 : Byte).toInt ≠ 0
      ∧ (1 : Byte) = (if true then 1 else 0)
      ∧ ((asking plain (.bind 3 0 2 2 0xF0 1)).table 0).entry.defined = true
      ∧ ((asking plain (.bind 3 0 2 2 0xF0 1)).table 0).entry.writer = some 0
      ∧ ((asking plain (.bind 3 0 2 2 0xF0 1)).table 0).current = some (version 1 1 0)
      ∧ (2 : Word).toNat < (version 1 1 0).length ∧ (version 1 1 0).length ≤ (3 : Word).toNat
      ∧ (binding 1 2 .ring true).offset < 3 ∧ 3 ≤ (binding 1 3 .ring true).offset := by
  decide +kernel

/-- A BIND that is held, beside the one it waits for, and one beside which no other stands. -/
theorem witness_BindWaitsForThePinOfAnother :
    (beside (askingAt plain (.bind 3 0 2 2 0xF0 1) .held)).asksUnbegun 0 (.bind 3 0 2 2 0xF0 1) 0x5A
      ∧ (beside (askingAt plain (.bind 3 0 2 2 0xF0 1) .held)).servesTables 0
      ∧ (beside (askingAt plain (.bind 3 0 2 2 0xF0 1) .held)).turn 1
          = .pinned 0 (binding 1 0 .linear false) 3 false
      ∧ (binding 1 0 .linear false).table = 0 ∧ (binding 1 0 .linear false).version = 1
      ∧ (asking plain (.bind 3 0 2 2 0xF0 1)).bindStands 0 1 = false := by decide +kernel

/-- A BIND whose pin is placed. -/
def pinned (offset : Nat) : Turn := .pinned 3 (binding 1 offset .ring true) 3 false

theorem witness_BindGoesOnFromItsPin :
    (askingAt plain (.bind 3 0 2 2 1 1) (pinned 2)).asksAt 0 (.bind 3 0 2 2 1 1) 0x5A (pinned 2)
      ∧ (askingAt plain (.bind 3 0 3 2 1 1) (pinned 3)).asksAt 0 (.bind 3 0 3 2 1 1) 0x5A (pinned 3)
      ∧ (askingAt plain (.bind 3 0 2 2 1 1) (pinned 2)).part.state ≠ .reset
      ∧ ((askingAt plain (.bind 3 0 2 2 1 1) (pinned 2)).session 0).isOpen = true := by
  decide +kernel

/-- Table 0 written by another port, with no reader. -/
def foreign : State :=
  served { record (some (version 1 1 0)) none none with
    entry := { entry with writer := some 1, readers := 0 } }

/-- Each operand just out of its range, with all the others in theirs; and a table undefined, without the
right, and EMPTY. -/
theorem witness_BindIsRefused :
    (asking plain (.bind 3 31 4095 2 0xF0 1)).asks 0 (.bind 3 31 4095 2 0xF0 1) 0x5A
      ∧ (asking plain (.bind 3 31 4095 2 0xF0 1)).servesTables 0
      ∧ 3 < (4 : Byte).toNat ∧ 31 < (32 : Byte).toNat ∧ 4095 < (4096 : Word).toNat
      ∧ 2 < (3 : Byte).toNat ∧ (0xEF : Byte).toInt < -16 ∧ 16 < (17 : Byte).toInt
      ∧ (0 : Byte).toInt = 0 ∧ 1 < (2 : Byte).toNat
      ∧ ¬(3 < (3 : Byte).toNat ∨ 31 < (31 : Byte).toNat ∨ 4095 < (4095 : Word).toNat
        ∨ 2 < (2 : Byte).toNat ∨ (0xF0 : Byte).toInt < -16 ∨ 16 < (0xF0 : Byte).toInt
        ∨ (0xF0 : Byte).toInt = 0 ∨ 1 < (1 : Byte).toNat)
      ∧ (plain.table 31).entry.defined = false
      ∧ (foreign.table 0).entry.defined = true ∧ (foreign.table 0).entry.writer ≠ some 0
      ∧ (foreign.table 0).entry.readers.getLsbD 0 = false
      ∧ ((served (record none none none)).table 0).current = none := by decide +kernel

/-- Requests for an unbound slot. -/
theorem witness_UnboundSlotsAreRefused :
    plain.cursor 0 0 = none ∧ (asking plain (.seek 0 0)).asks 0 (.seek 0 0) 0x5A
      ∧ (asking plain (.seek 0 0)).servesTables 0
      ∧ (asking plain (.fetch 0 16)).asks 0 (.fetch 0 16) 0x5A
      ∧ (asking plain (.peek 0 4095 1)).asks 0 (.peek 0 4095 1) 0x5A
      ∧ (asking plain (.resync 0)).asks 0 (.resync 0) 0x5A := by decide +kernel

theorem witness_UnbindUnpins :
    (asking plain (.unbind 0)).asks 0 (.unbind 0) 0x5A ∧ (asking plain (.unbind 0)).servesTables 0
      ∧ (0 : Byte).toNat = (0 : SlotId).val
      ∧ (bound plain (binding 1 0 .ring false)).cursor 0 0 = some (binding 1 0 .ring false)
      ∧ plain.cursor 0 0 = none := by decide +kernel

theorem witness_SeekSetsTheOffset :
    (asking (bound swapped (binding 1 0 .linear true)) (.seek 0 2)).asks 0 (.seek 0 2) 0x5A
      ∧ (asking (bound swapped (binding 1 0 .linear true)) (.seek 0 2)).servesTables 0
      ∧ (bound swapped (binding 1 0 .linear true)).cursor 0 0 = some (binding 1 0 .linear true)
      ∧ (bound swapped (binding 1 0 .linear true)).lookup 0 1 = some (version 1 1 1, false)
      ∧ (2 : Word).toNat < (version 1 1 1).length ∧ (version 1 1 1).length ≤ (3 : Word).toNat := by
  decide +kernel

/-- Steps to the edge and past it, forward and back. -/
theorem witness_LinearAndPageStepsStayInBounds :
    2 < 3 ∧ (0 ≤ ((1 : Nat) : Int) + 1 ∧ ((1 : Nat) : Int) + 1 < (3 : Nat))
      ∧ ((0 : Nat) : Int) + -1 < 0 ∧ ((3 : Nat) : Int) ≤ ((2 : Nat) : Int) + 1
      ∧ Mode.step .linear 2 1 3 = 3 ∧ Mode.step .linear 0 (-1) 3 = 3 := by decide

theorem witness_RingStepWrapsByTheLength : 1 ≤ 1 ∧ (binding 1 0 .ring false).mode = .ring := by
  decide

/-- A read of P0 in its turns, with its next word at an offset of page 0 and this many left. -/
def reading (walk : Walk) (read : List Word) (left : Nat) : ReadJob :=
  { walk := walk, table := 0, number := 2, length := 3, pages := [0], stale := false
    rebound := false, words := read, left := left }

/-- That read in progress beside a fill that waits, with the arbiter's pointer here. -/
def readBeside (r : Request) (job : ReadJob) (pointer : Requestor) : State :=
  { askingAt (bound (filling (.filling .zero) (some (progress 0 none))) (binding 2 1 .linear false)) r
      (.reading job) with
    arbiter := pointer }

/-- In turns: granted and not granted beside a fill, with a word to follow, at the last word asked for, at
the last word before END, and at END; by no word, one and two. -/
theorem witness_FetchReturnsTheWordsInTurns :
    let s := readBeside (.fetch 0 2) (reading (.fetch 0) [] 2)
    (s (.portEngine 0)).asksAt 0 (.fetch 0 2) 0x5A (.reading (reading (.fetch 0) [] 2))
      ∧ (s (.portEngine 0)).servesTables 0
      ∧ (s (.portEngine 0)).cursor 0 0 = some (binding 2 1 .linear false)
      ∧ (binding 2 1 .linear false).atEnd 3 = false
      ∧ (s (.portEngine 0)).lookup 0 2 = some (version 2 0 0, true)
      ∧ (s (.portEngine 0)).grants (.portEngine 0) = true
      ∧ (s .staging).grants (.portEngine 0) = false
      ∧ Requestor.staging ≠ .portEngine 0 ∧ (s .staging).waits .staging = true
      ∧ oddOnes ((s .staging).versionWord [0] 1) = true
      ∧ 1 < (reading (.fetch 0) [] 2).left ∧ (reading (.fetch 0) [11] 1).left = 1
      ∧ (binding 2 2 .linear false).atEnd 3 = false ∧ (binding 2 3 .linear false).atEnd 3 = true
      ∧ (bound (s .staging) (binding 2 3 .linear false)).cursor 0 0 = some (binding 2 3 .linear false)
      ∧ 1 ≤ 1 ∧ 1 < 2 ∧ (16 : Byte).toNat ≤ 16
      ∧ oddOnes ((s .staging).versionWord [1] 0) = false
      ∧ (s .staging).arbiter ≠ Requestor.next .staging := by decide +kernel

theorem witness_FetchReturnsTheWords :
    (asking (bound plain (binding 1 1 .linear true)) (.fetch 0 16)).waiting = []
      ∧ (asking (bound plain (binding 1 1 .linear true)) (.fetch 0 16)).asks 0 (.fetch 0 16) 0x5A
      ∧ (asking (bound plain (binding 1 1 .linear true)) (.fetch 0 16)).servesTables 0
      ∧ 1 ≤ (1 : Byte).toNat ∧ (16 : Byte).toNat ≤ 16
      ∧ (bound plain (binding 1 1 .linear true)).cursor 0 0 = some (binding 1 1 .linear true)
      ∧ (bound plain (binding 1 1 .linear true)).lookup 0 1 = some (version 1 1 0, true)
      ∧ fetchOffsets (binding 1 1 .linear true) 3 16 = [1, 2]
      ∧ fetchOffsets (binding 1 3 .linear true) 3 16 = []
      ∧ (bound plain (binding 1 1 .linear true)).soundAt [0] [1, 2] := by decide +kernel

/-- A version on page 1, whose word 0 has a parity error. -/
theorem witness_FetchStopsAtAParityError :
    (asking (bound swapped (binding 1 0 .ring false)) (.fetch 0 1)).waiting = [] ∧
    (asking (bound swapped (binding 1 0 .ring false)) (.fetch 0 1)).asks 0 (.fetch 0 1) 0x5A
      ∧ (asking (bound swapped (binding 1 0 .ring false)) (.fetch 0 1)).servesTables 0
      ∧ (bound swapped (binding 1 0 .ring false)).cursor 0 0 = some (binding 1 0 .ring false)
      ∧ (bound swapped (binding 1 0 .ring false)).lookup 0 1 = some (version 1 1 1, false)
      ∧ fetchOffsets (binding 1 0 .ring false) 3 1 = [] ++ 0 :: []
      ∧ (bound swapped (binding 1 0 .ring false)).soundAt [1] []
      ∧ oddOnes ((bound swapped (binding 1 0 .ring false)).versionWord [1] 0) = false := by
  decide +kernel

/-- PEEK up to the last word, and one past it. -/
theorem witness_PeekReturnsTheWordsInTurns :
    let s := readBeside (.peek 0 1 2) (reading (.peek 1) [] 2)
    (s .staging).asksAt 0 (.peek 0 1 2) 0x5A (.reading (reading (.peek 1) [] 2))
      ∧ (s .staging).servesTables 0 ∧ (s .staging).lookup 0 2 = some (version 2 0 0, true)
      ∧ (s .staging).grants (.portEngine 0) = false
      ∧ (s (.portEngine 0)).grants (.portEngine 0) = true
      ∧ (s .staging).waits .staging = true ∧ oddOnes ((s .staging).versionWord [0] 1) = true
      ∧ oddOnes ((s .staging).versionWord [1] 0) = false
      ∧ (reading (.peek 1) [11] 1).left = 1 := by decide +kernel

theorem witness_PeekReturnsTheWords :
    (asking (bound plain (binding 1 0 .page false)) (.peek 0 1 2)).waiting = []
      ∧ (List.range 1).map (fun i => (0 : Word).toNat + i) = [] ++ 0 :: []
      ∧ (bound swapped (binding 1 0 .page false)).lookup 0 1 = some (version 1 1 1, false)
      ∧ (bound swapped (binding 1 0 .page false)).soundAt [1] []
      ∧ oddOnes ((bound swapped (binding 1 0 .page false)).versionWord [1] 0) = false ∧
    (asking (bound plain (binding 1 0 .page false)) (.peek 0 1 2)).asks 0 (.peek 0 1 2) 0x5A
      ∧ (asking (bound plain (binding 1 0 .page false)) (.peek 0 1 2)).servesTables 0
      ∧ (1 : Word).toNat ≤ 4095 ∧ 1 ≤ (2 : Byte).toNat ∧ (2 : Byte).toNat ≤ 16
      ∧ (bound plain (binding 1 0 .page false)).lookup 0 1 = some (version 1 1 0, true)
      ∧ (1 : Word).toNat + (2 : Byte).toNat ≤ (version 1 1 0).length
      ∧ (bound plain (binding 1 0 .page false)).soundAt [0] [1, 2]
      ∧ (version 1 1 0).length < (1 : Word).toNat + (3 : Byte).toNat := by decide +kernel

theorem witness_SlotsMoveToTheCurrentVersion :
    (asking (bound swapped (binding 1 0 .ring true)) (.resync 0)).asks 0 (.resync 0) 0x5A
      ∧ (asking (bound swapped (binding 1 0 .ring true)) (.resync 0)).servesTables 0
      ∧ (bound swapped (binding 1 0 .ring true)).cursor 0 0 = some (binding 1 0 .ring true)
      ∧ ((bound swapped (binding 1 0 .ring true)).table 0).current = some (version 2 0 0)
      ∧ (version 2 0 0).number ≠ (binding 1 0 .ring true).version
      ∧ (version 1 1 0).number = (binding 1 0 .ring true).version
      ∧ (binding 1 0 .ring true).follow = true
      ∧ (asking (bound swapped (binding 1 0 .ring true)) (.fetch 0 16)).asks 0 (.fetch 0 16) 0x5A
      ∧ (asking (bound swapped (binding 1 0 .ring true)) (.peek 0 0 1)).asks 0 (.peek 0 0 1)
          0x5A
      ∧ (asking (bound swapped (binding 1 0 .ring true)) (.peek 0 0 1)).waiting = []
      ∧ fetchOffsets (binding 2 0 .ring true) 3 1 = [0]
      ∧ (bound swapped (binding 1 0 .ring true)).soundAt [0] [0]
      ∧ (0 : Word).toNat + (3 : Byte).toNat ≤ (version 2 0 0).length
      ∧ (version 2 0 0).length < (1 : Word).toNat + (3 : Byte).toNat := by decide +kernel

theorem witness_CursorInfoReportsTheSlot :
    (asking plain (.cursorInfo 0)).asks 0 (.cursorInfo 0) 0x5A
      ∧ (asking plain (.cursorInfo 0)).servesTables 0 ∧ plain.cursor 0 0 = none
      ∧ (bound plain (binding 1 3 .linear false)).cursor 0 0 = some (binding 1 3 .linear false)
      ∧ (bound plain (binding 1 3 .linear false)).lookup 0 1 = some (version 1 1 0, true) := by
  decide +kernel

/-- P0's stack of this depth, of unbound contexts. -/
def stacked (s : State) (n : Nat) : State := s.setStack 0 (List.replicate n none)

theorem witness_SavePushesTheContext :
    (asking (stacked plain 3) (.save 0)).asks 0 (.save 0) 0x5A
      ∧ (asking (stacked plain 3) (.save 0)).servesTables 0
      ∧ ((stacked plain 3).stack 0).length < 4 ∧ 4 ≤ ((stacked plain 4).stack 0).length
      ∧ (stacked plain 3).cursor 0 0 = none
      ∧ (bound plain (binding 1 0 .ring false)).cursor 0 0 = some (binding 1 0 .ring false)
      ∧ (plain.table 0).current = some (version 1 1 0) ∧ (version 1 1 0).number = 1
      ∧ (∀ v ∈ (swapped.table 0).current, v.number ≠ 1)
      ∧ (swapped.table 0).retiring = some (version 1 1 1) := by decide +kernel

theorem witness_RestorePopsTheContext :
    (asking plain (.restore 0)).asks 0 (.restore 0) 0x5A ∧ (asking plain (.restore 0)).servesTables 0
      ∧ plain.stack 0 = [] ∧ (stacked plain 1).stack 0 = [none]
      ∧ (plain.setStack 0 [some (binding 1 0 .ring false)]).stack 0
          = [some (binding 1 0 .ring false)]
      ∧ (((plain.leaseRenewed 0).setStack 0 []).setCursor 0 0
          (some (binding 1 0 .ring false))).lookup 0 1 = some (version 1 1 0, true) := by
  decide +kernel

theorem witness_DiscardDropsTheTop :
    (asking plain .discard).asks 0 .discard 0x5A ∧ (asking plain .discard).servesTables 0
      ∧ plain.stack 0 = [] ∧ (stacked plain 1).stack 0 = [none]
      ∧ (plain.setStack 0 [some (binding 1 0 .ring false)]).stack 0
          = [some (binding 1 0 .ring false)] := by decide +kernel

/-! ### Staging -/

/-- Lengths 1 and 512 are in range of two pages, 513 and 4097 are not; fill kinds 0 to 3 are, 4 is
not. -/
theorem witness_StageCreatesAVersion :
    (asking plain (.stage 0 512 0 0)).asks 0 (.stage 0 512 0 0) 0x5A
      ∧ (asking plain (.stage 0 512 0 0)).servesTables 0
      ∧ (asking plain (.stage 0 512 0 0)).writes 0 0 ∧ (plain.table 0).staged = none
      ∧ 1 ≤ (1 : Word).toNat ∧ (512 : Word).toNat ≤ (plain.table 0).entry.maxPages * 256
      ∧ ((512 : Word).toNat + 255) / 256 ≤ plain.freePool.length
      ∧ (plain.table 0).current = some (version 1 1 0)
      ∧ (plain.table 0).entry.persistent = true ∧ plain.imageQueue.length < 4
      ∧ (plain.table 1).entry.defined = false ∧ (plain.table 0).entry.writer ≠ some 1
      ∧ 4096 < (4097 : Word).toNat ∧ 3 < (4 : Byte).toNat ∧ 65535 ≤ 65535 ∧ ¬65535 ≤ 65534
      ∧ (plain.table 0).entry.maxPages * 256 < (513 : Word).toNat
      ∧ (full.table 0).staged.isSome = true
      ∧ ((served (record none none none)).table 0).current = none
      ∧ ({ plain with freePool := [3] } : State).freePool.length < (257 + 255) / 256 := by
  decide +kernel

/-- A WRITE of two words between them, with the arbiter's pointer here, beside a persist that waits. -/
def writing (left : List Word) (pointer : Requestor) : State :=
  { askingAt full (.write 0 1 [7, 8]) (.writing
      { number := 3, pages := [2], offset := 3 - left.length, words := left, count := 2 }) with
    arbiter := pointer
    imageWork := .persistProgramming
      { table := 0, number := 2, length := 3, pages := [0], check := none, target := .a
        sequence := 1 } 0 }

/-- The held WRITE, its first turn, and its turns beside another requestor: granted with a word to
follow and at the last word, and not granted. -/
theorem witness_WriteStoresTheWordsInTurns :
    (askingAt full (.write 0 1 [7, 8]) .held).asksUnbegun 0 (.write 0 1 [7, 8]) 0x5A
      ∧ (writing [7, 8] .staging).writeWaits = true ∧ (asking full (.write 0 1 [7, 8])).writeWaits = false
      ∧ (filling (.filling (.copy 2)) (some { progress 1 (some 2) with copied := some 9 })).headWork
          = some { progress 1 (some 2) with copied := some 9 }
      ∧ (asking full (.write 0 1 [7, 8])).headWork = none
      ∧ (asking full (.write 0 1 [7, 8])).waiting = []
      ∧ (writing [7, 8] .staging).asksAt 0 (.write 0 1 [7, 8]) 0x5A (.writing
          { number := 3, pages := [2], offset := 1, words := [7, 8], count := 2 })
      ∧ (writing [7, 8] .staging).admits 0 ∧ wordAddress [2] 1 = some 513
      ∧ (writing [7, 8] .staging).grants .staging = true
      ∧ (writing [7, 8] .imageStore).grants .staging = false
      ∧ Requestor.imageStore ≠ .staging ∧ (writing [7, 8] .staging).waits .imageStore = true
      ∧ ([8] : List Word) ≠ [] ∧ wordAddress [2] 2 = some 514 := by decide +kernel

theorem witness_WriteStoresTheWords :
    (asking full (.write 0 2 [7])).asks 0 (.write 0 2 [7]) 0x5A
      ∧ (asking full (.write 0 2 [7])).servesTables 0 ∧ (2 : Word).toNat ≤ 4095
      ∧ (asking full (.write 0 2 [7])).writes 0 0
      ∧ (full.table 0).staged = some (staged 3 .opened) ∧ (staged 3 .opened).sub = .opened
      ∧ ([7] : List Word) ≠ [] ∧ (2 : Word).toNat + 1 ≤ (staged 3 .opened).version.length
      ∧ (staged 3 .opened).version.pages.Nodup ∧ (∀ x ∈ (staged 3 .opened).version.pages, x < 128)
      ∧ (staged 3 .opened).version.length ≤ (staged 3 .opened).version.pages.length * 256 := by
  decide +kernel

/-- Words past the length, operands above their range, and tables that are undefined or another port's. -/
theorem witness_WriterRequestsAreRefused :
    (staged 3 .opened).version.length < (2 : Word).toNat + ([7, 8] : List Word).length
      ∧ (asking full (.write 0 2 [7, 8])).asks 0 (.write 0 2 [7, 8]) 0x5A
      ∧ (asking full (.write 0 2 [7, 8])).servesTables 0 ∧ 31 < (32 : Byte).toNat
      ∧ 4095 < (4096 : Word).toNat ∧ (asking full (.write 32 4096 [])).asks 0 (.write 32 4096 []) 0x5A
      ∧ (asking plain (.commit 1 0)).asks 0 (.commit 1 0) 0x5A
      ∧ (asking plain (.commit 1 0)).servesTables 0 ∧ (plain.table 1).entry.defined = false
      ∧ (foreign.table 0).entry.defined = true ∧ (foreign.table 0).entry.writer ≠ some 0
      ∧ (asking foreign (.abort 0)).asks 0 (.abort 0) 0x5A
      ∧ (asking foreign (.persist 0)).asks 0 (.persist 0) 0x5A
      ∧ (asking foreign (.persist 0)).servesTables 0 := by decide +kernel

theorem witness_CommitQueuesTheSumming :
    (asking full (.commit 0 5)).servesTables 0 ∧ (asking full (.commit 0 5)).writes 0 0
      ∧ (asking full (.commit 0 5)).asks 0 (.commit 0 5) 0x5A
      ∧ (full.table 0).staged = some (staged 3 .opened) ∧ (staged 3 .opened).sub = .opened
      ∧ (staged 3 (.summing 0)).sub ≠ .opened
      ∧ (asking full (.write 0 4095 [])).asks 0 (.write 0 4095 []) 0x5A
      ∧ (plain.table 0).staged = none ∧ (asking plain (.abort 0)).asks 0 (.abort 0) 0x5A := by
  decide +kernel

theorem witness_AbortReleasesTheVersion :
    (asking full (.abort 0)).asks 0 (.abort 0) 0x5A ∧ (asking full (.abort 0)).servesTables 0
      ∧ (asking full (.abort 0)).writes 0 0 ∧ (full.table 0).staged = some (staged 3 .opened)
      ∧ (staged 3 .opened).sub = .opened
      ∧ ((filling (.filling .zero) (some (progress 1 none))).workList.head? = some 0
          ∧ (filling (.filling .zero) (some (progress 1 none))).headWork.map (·.source) = some none)
      ∧ (filling (.filling (.copy 2)) (some (progress 1 (some 2)))).headWork.map (·.source)
          = some (some 2)
      ∧ ((queued plain (.storeRead 0) .idle).imageWork = .idle)
      ∧ (queued plain (.storeRead 0) (.selecting 0 [])).imageWork ≠ .idle
      ∧ (queued plain (.storeRead 0) (.selecting 0 [])).imageQueue
          = [{ op := .storeRead 0, port := 0, session := 1 }]
      ∧ QueueOp.persist 1 ≠ .storeRead 0 := by decide +kernel

/-- The head beside a persist that waits, with the arbiter's pointer here. -/
def fillBeside (w : Option HeadWork) (pointer : Requestor) : State :=
  { filling (.filling (.copy 2)) w with
    arbiter := pointer
    imageWork := .persistProgramming
      { table := 0, number := 2, length := 3, pages := [0], check := none, target := .a
        sequence := 1 } 0 }

/-- Granted alone, beside another requestor, and not granted; the first words; a word copied and not yet
written; the last word of a COPY fill above its source. -/
theorem witness_FillWordIsGranted :
    (filling (.filling .zero) none).headWork = none
      ∧ (filling (.filling .zero) none).writeWaits = false
      ∧ (filling (.filling .zero) none).grants .staging = true
      ∧ (∀ q : Port, (filling (.filling .zero) none).waits (.portEngine q) = false)
      ∧ (filling (.filling .zero) none).waits .imageStore = false
      ∧ wordAddress (staged 3 (.filling .zero)).version.pages 0 = some 512
      ∧ (fillBeside none .staging).grants .staging = true
      ∧ (fillBeside none .staging).writeWaits = false
      ∧ (fillBeside none .staging).waits .imageStore = true
      ∧ (fillBeside none .imageStore).grants .staging = false
      ∧ ((fillBeside none .staging).table 0).current = some (version 2 0 0)
      ∧ ((fillBeside none .staging).table 0).staged = some (staged 3 (.filling (.copy 2)))
      ∧ (fillBeside (some (progress 1 (some 2))) .staging).lookup 0 2 = some (version 2 0 0, true)
      ∧ (fillBeside (some { progress 1 (some 2) with copied := some 9 }) .staging).headWork
          = some { progress 1 (some 2) with copied := some 9 }
      ∧ oddOnes ((fillBeside none .staging).versionWord [0] 0) = true
      ∧ (writing [7, 8] .staging).writeWaits = true := by decide +kernel

/-- Fills at their last word and before it, and COPY fills with a sound, a short and a faulty source. -/
theorem witness_FillWordWritesOneWord :
    (working full (some { offset := 2, check := 0, source := none })).workList = [0]
      ∧ (working full (some { offset := 2, check := 0, source := none })).headWork
          = some { offset := 2, check := 0, source := none }
      ∧ wordAddress (staged 3 (.filling .zero)).version.pages 2 = some 514
      ∧ 2 + 1 = (staged 3 (.filling .zero)).version.length
      ∧ 1 + 1 < (staged 3 (.filling (.value 9))).version.length
      ∧ (working full none).headWork = none ∧ full.lookup 0 2 = some (version 2 0 0, true)
      ∧ 2 < (version 2 0 0).length ∧ oddOnes (full.versionWord [0] 2) = true
      ∧ (version 2 0 0).length ≤ 3 ∧ 1 < (staged 3 (.filling (.copy 2))).version.length
      ∧ oddOnes (full.versionWord [0] 0) = true
      ∧ oddOnes (full.versionWord [1] 0) = false := by decide +kernel

/-- The first word of a SUMMING, granted; not granted; and a HELD limit of one second. -/
theorem witness_SummingWordIsGranted :
    (filling (.summing 1) none).headWork = none
      ∧ (filling (.summing 1) none).workList = [0]
      ∧ (filling (.summing 1) none).writeWaits = false
      ∧ (filling (.summing 1) none).grants .staging = true
      ∧ (fillBeside none .imageStore).grants .staging = false ∧ 0 < 1
      ∧ (∀ v ∈ ((filling (.summing 1) none).table 0).current, v.number ≠ 3 ∧ v.pins = 0)
      ∧ ((filling (.summing 1) none).table 0).retiring = none
      ∧ (staged 3 (.summing 1)).version.pages[0]? = some 2
      ∧ ((filling (.summing 1) none).session 0).number ≠ 2 := by decide +kernel

theorem witness_SummingWordEndsInItsOutcome :
    (working full (some { offset := 2, check := 0, source := none })).workList = [0]
      ∧ ((served (record none (some (staged 3 (.summing 0))) none)).table 0).staged
          = some (staged 3 (.summing 0))
      ∧ (staged 3 (.summing 0)).sub = .summing 0
      ∧ oddOnes (full.versionWord [2] 0) = true ∧ 1 + 1 < (staged 3 (.summing 0)).version.length
      ∧ 2 + 1 = (staged 3 (.summing 0)).version.length
      ∧ ((full.table 0).entry.writer = some 0 ∧ (full.session 0).isOpen = true
          ∧ (full.session 0).number = (staged 3 (.summing 0)).session)
      ∧ (full.table 0).retiring = some (version 1 1 1)
      ∧ ((served (record none none none)).table 0).retiring = none
      ∧ oddOnes (full.versionWord [1] 0) = false := by decide +kernel

/-- A HELD version beside no RETIRING one, with a notice on its way. -/
def held (session : Nat) : State :=
  { served (record (some (version 2 0 0)) (some { staged 3 (.held 4) with session := session })
      none) with notices := [0] }

theorem witness_HoldEndsByNoticeOrDeadline :
    0 ∈ (held 1).notices ∧ ((held 1).table 0).staged = some (staged 3 (.held 4))
      ∧ ((held 1).table 0).retiring = none ∧ ((held 1).table 0).entry.writer = some 0
      ∧ ((held 1).session 0).isOpen = true ∧ ((held 1).session 0).number = 1
      ∧ ((held 9).session 0).number ≠ 9
      ∧ (({ full with notices := [0] } : State).table 0).retiring.isSome = true
      ∧ 0 ∈ ({ full with notices := [0] } : State).notices
      ∧ 0 ∈ ({ plain with notices := [0] } : State).notices
      ∧ (plain.table 0).staged = none := by decide +kernel

/-! ### Image store -/

theorem witness_PersistQueuesOrMerges :
    (asking plain (.persist 0)).asks 0 (.persist 0) 0x5A ∧ (asking plain (.persist 0)).servesTables 0
      ∧ (asking plain (.persist 0)).writes 0 0 ∧ (plain.table 0).entry.persistent = true
      ∧ (plain.table 0).current.any (fun v => v.damage ≠ Damage.clear) = false
      ∧ plain.supply = .ok
      ∧ (queued plain (.persist 0) (.persistMarking
          { table := 0, number := 1, length := 3, pages := [0], check := none, target := .a
            sequence := 1 })).imageWork ≠ .idle
      ∧ (queued plain (.persist 0) .idle).imageQueue.any (fun e => e.op = .persist 0) = true
      ∧ plain.imageQueue.length < 4 := by decide +kernel

/-- A slot with its marker and this sequence number. -/
def slotAt (n : Nat) : TableSlot :=
  { data := [1, 2, 3]
    header := some { table := 0, sequence := n, version := 1, length := 3, check := 0x1234 }
    marker := true }

/-- The last sequence number that has a successor, the last one, and two equal ones; and a supply that is
LOW. -/
theorem witness_PersistStartChoosesTheTarget :
    ({ queued plain (.persist 0) .idle with supply := .low } : State).supply = .low ∧
    (queued plain (.persist 0) .idle).imageQueue = [{ op := .persist 0, port := 0, session := 1 }]
      ∧ (queued plain (.persist 0) .idle).imageWork = .idle
      ∧ (queued plain (.persist 0) .idle).supply = .ok
      ∧ ((served (record none none none)).table 0).current = none
      ∧ (plain.table 0).current = some (version 1 1 0) ∧ (version 1 1 0).damage = .clear
      ∧ { version 1 1 0 with damage := .check }.damage ≠ .clear
      ∧ (plain.pair 0).a.marker = false ∧ (plain.pair 0).b.marker = false
      ∧ (slotAt 5).marker = true ∧ ((slotAt 5).header.map (·.sequence)) = some 5
      ∧ 4294967294 < 4294967295 ∧ 5 ≤ 5 ∧ 5 < 6 := by decide +kernel

/-- A persist of table 0's version 1 into slot A. -/
def job : PersistJob :=
  { table := 0, number := 1, length := 3, pages := [0], check := some 0x1234, target := .a
    sequence := 1 }

theorem witness_PersistWritesTheTarget :
    (queued plain (.persist 0) (.persistErasing job)).imageQueue
        = [{ op := .persist 0, port := 0, session := 1 }]
      ∧ (queued plain (.persist 0) (.persistErasing job)).imageWork = .persistErasing job
      ∧ (queued plain (.persist 0) (.persistProgramming job 2)).imageWork
          = .persistProgramming job 2
      ∧ (queued plain (.persist 0) (.persistProgramming job 2)).grants .imageStore = true
      ∧ ({ working (queued (filling (.filling .zero) none) (.persist 0) (.persistProgramming job 2))
            none with arbiter := .staging } : State).grants .imageStore = false
      ∧ oddOnes (plain.versionWord job.pages 2) = true
      ∧ oddOnes (plain.versionWord [1] 0) = false
      ∧ (queued plain (.persist 0) (.persistMarking job)).imageWork = .persistMarking job
      ∧ job.check = some 0x1234 := by decide +kernel

/-- A STORE fill that has not begun. -/
def awaiting (work : ImageWork) : State :=
  queued (served (record none (some { staged 3 (.filling .store) with
    version := { version 3 0 0 with length := 0, pages := [], check := none } }) none))
    (.storeRead 0) work

/-- A good image of three words of table 0. -/
def image : TableSlot :=
  { slotAt 5 with
    header := some
      { table := 0, sequence := 5, version := 1, length := 3, check := checkValue 3 [1, 2, 3] } }

theorem witness_StoreReadSelectsTheImage :
    (awaiting .idle).imageWork = .idle
      ∧ (awaiting (.selecting 0 [])).imageWork = .selecting 0 []
      ∧ (awaiting (.selecting 0 [.a])).imageWork = .selecting 0 [.a]
      ∧ ((awaiting .idle).pair 0).a.marker = false ∧ ((awaiting .idle).pair 0).b.marker = false
      ∧ (slotAt 5).marker = true ∧ (slotAt 5).header.map (·.sequence) = some 5 ∧ 5 ≤ 5 ∧ 5 < 6
      ∧ ((awaiting (.selecting 0 [.a])).table 0).staged.map (fun st => (st.sub, st.version.pages))
          = some (.filling .store, [])
      ∧ (((awaiting .idle).pair 0).slot .a).goodHeader 0 = none
      ∧ (image.goodHeader 0).map (·.length) = some 3
      ∧ 3 ≤ entry.maxPages * 256 ∧ entry.maxPages * 256 < 513
      ∧ (3 + 255) / 256 ≤ (awaiting .idle).freePool.length := by decide +kernel

/-- A STORE read at an offset of table 0's slot A. -/
def copying (offset : Nat) (pointer : Requestor) : State :=
  { awaiting (.reading
      { table := 0, slot := .a
        header := { table := 0, sequence := 5, version := 1, length := 3, check := 0 }
        offset := offset, register := 0 }) with
    arbiter := pointer, workList := [1]
    tables := (awaiting .idle).tables.set 1 (record none (some (staged 3 (.filling .zero))) none) }

theorem witness_StoreReadCopiesTheImage :
    (copying 2 .imageStore).grants .imageStore = true
      ∧ (copying 2 .staging).grants .imageStore = false
      ∧ (copying 2 .staging).imageQueue = [{ op := .storeRead 0, port := 0, session := 1 }] ∧
    wordAddress (staged 3 (.filling .store)).version.pages 2 = some 514
      ∧ image.data[2]? = some 3 ∧ 1 + 1 < 3 ∧ 2 + 1 = 3
      ∧ checkFeed (checkFeed (checkFeed (checkFeed 0xFFFF 3) 1) 2) 3 = checkValue 3 [1, 2, 3]
      ∧ checkFeed (checkFeed (checkFeed (checkFeed 0xFFFF 3) 1) 2) 4 ≠ checkValue 3 [1, 2, 3] := by
  decide +kernel

/-- A good charter slot of this sequence number. -/
def goodCharter (c : Charter) (n : Nat) : CharterSlot :=
  { record := some c, header := some { sequence := n, check := c.checkValue }, marker := true }

theorem goodCharter_good (c : Charter) (n : Nat) :
    (goodCharter c n).good = some (c, { sequence := n, check := c.checkValue }) := by
  unfold goodCharter CharterSlot.good
  exact if_pos ⟨rfl, rfl⟩

theorem newestGood_both (c : Charter) (m n : Nat) :
    ({ a := goodCharter c m, b := goodCharter c n } : CharterPair).newestGood
      = if m < n then some (.b, c, n) else some (.a, c, m) := by
  unfold CharterPair.newestGood
  simp only [goodCharter_good]

theorem newestGood_alone (c : Charter) (n : Nat) :
    ({ a := goodCharter c n, b := CharterSlot.erased } : CharterPair).newestGood
      = some (.a, c, n) := by
  have h : CharterSlot.erased.good = none := by
    unfold CharterSlot.erased CharterSlot.good
    rfl
  unfold CharterPair.newestGood
  simp only [goodCharter_good, h]

theorem witness_CharterWriteFillsTheTarget :
    ({ queued plain (.charterWrite charter) .idle with supply := .low } : State).supply = .low ∧
    (queued plain (.charterWrite charter) .idle).imageQueue
        = [{ op := .charterWrite charter, port := 0, session := 1 }]
      ∧ plain.charterSlots.newestGood = none
      ∧ ({ a := goodCharter charter 8, b := goodCharter charter 8 } : CharterPair).newestGood
          = some (.a, charter, 8)
      ∧ ({ a := goodCharter charter 8, b := goodCharter charter 4294967295 } : CharterPair).newestGood
          = some (.b, charter, 4294967295)
      ∧ ((maintained plain).part.state = .maintenance ∧ (maintained plain).part.maintPort = some 0
          ∧ ((maintained plain).session 0).number = 1)
      ∧ plain.part.state ≠ .maintenance := by
  refine ⟨by decide, by decide +kernel, by decide +kernel, (newestGood_both charter 8 8).trans (if_neg (by decide)),
    (newestGood_both charter 8 4294967295).trans (if_pos (by decide)),
    by decide +kernel, by decide +kernel⟩

/-! ### The part -/

theorem witness_PartResetsClearTheVolatileState :
    (queued plain (.persist 0) (.persistProgramming job 2)).part.state ≠ .reset
      ∧ (queued plain (.persist 0) (.persistProgramming job 2)).imageWork
          = .persistProgramming job 2
      ∧ plain.part.state ≠ .reset ∧ State.reset.part.state = .reset := by decide +kernel

theorem witness_LoadingChoosesTheCharter :
    State.reset.part.state = .reset ∧ 2650 < 2651 ∧ 2949 < 2950 ∧ ¬2950 < 2950
      ∧ (loading plain .charter).part.state = .loading
      ∧ (loading plain .charter).part.loading = .charter
      ∧ (loading plain .charter).charterSlots.newestGood = none
      ∧ ({ a := goodCharter charter 8, b := CharterSlot.erased } : CharterPair).newestGood
          = some (.a, charter, 8) := by
  refine ⟨by decide, by decide, by decide, by decide, by decide +kernel, by decide +kernel,
    by decide +kernel, newestGood_alone charter 8⟩

/-- Table 0 about to load, its slot A as given. -/
def loadingFrom (x : TableSlot) : State :=
  (loading (served (record none none none)) (.table 0)).setPair 0 { a := x, b := TableSlot.erased }

theorem witness_LoadTableEndsInItsResult :
    (loadingFrom image).part.state = .loading ∧ (loadingFrom image).part.loading = .table 0
      ∧ ((loadingFrom image).table 1).entry.defined = false
      ∧ ((loadingFrom image).table 0).entry.defined = true
      ∧ ((loadingFrom image).table 0).entry.persistent = true
      ∧ ((loadingFrom TableSlot.erased).pair 0).candidates = []
      ∧ ((loadingFrom (slotAt 5)).pair 0).candidates = [.a]
      ∧ (((loadingFrom (slotAt 5)).pair 0).slot .a).goodHeader 0 = none
      ∧ ((((loadingFrom image).pair 0).slot .a).goodHeader 0).map (·.length) = some 3
      ∧ 3 ≤ entry.maxPages * 256 ∧ entry.maxPages * 256 < 513
      ∧ (3 + 255) / 256 ≤ (loadingFrom image).freePool.length
      ∧ (loadingFrom image).freePool.Nodup ∧ (loadingFrom image).freePool.Pairwise (· < ·)
      ∧ wordAddress ((loadingFrom image).freePool.take 1) 2 = some 770
      ∧ checkValue 3 [1, 2, 9] ≠ checkValue 3 [1, 2, 3]
      ∧ ([(2, 9)] : List (Nat × Word)) ≠ []
      ∧ ({ loadingFrom image with freePool := [] } : State).freePool.length < (3 + 255) / 256 := by
  decide +kernel

theorem witness_SupplyChangesAreTold :
    plain.supply = .ok ∧ State.reset.supply = .low ∧ (plain.session 1).isOpen = false := by
  decide +kernel

theorem witness_MaintEnterTakesTheCharter :
    (asking plain .maintEnter).asks 0 .maintEnter 0x5A ∧ (asking plain .maintEnter).admits 0
      ∧ plain.part.state ≠ .maintenance
      ∧ (plain.part.charter.ports[(0 : Port)]).maintenance = true
      ∧ (∀ q : Port, q ≠ 0 → (plain.session q).isOpen = false) ∧ plain.imageQueue = []
      ∧ (∀ t : TableId, (plain.table t).staged.isSome = false) ∧ plain.reports = [] := by
  decide +kernel

theorem witness_CharterRequestsUseTheWorkingCopy :
    (maintained (asking plain (.charterRead 36))).admits 0
      ∧ (maintained (asking plain (.charterRead 36))).maintains 0 charter
      ∧ (maintained (asking plain (.charterRead 36))).asks 0 (.charterRead 36) 0x5A
      ∧ entryOperand 31 = some (.table 31) ∧ entryOperand 32 = some (.port 0)
      ∧ entryOperand 35 = some (.port 3) ∧ entryOperand 36 = some .part ∧ 36 < (37 : Byte).toNat
      ∧ (maintained (asking plain (.charterWrite 0 1 16 0xFF 15 0))).asks 0
          (.charterWrite 0 1 16 0xFF 15 0) 0x5A
      ∧ (tableEntryOperand 1 16 0xFF 15 0).isSome = true ∧ tableEntryOperand 1 17 0 0 0 = none
      ∧ (portEntryOperand 1 1 0x17 0x70).isSome = true ∧ portEntryOperand 1 1 0x17 0x71 = none
      ∧ (maintained (asking plain .charterCommit)).asks 0 .charterCommit 0x5A
      ∧ (asking plain .charterCommit).part.state ≠ .maintenance
      ∧ (Instr.charterCommit 0).asRequest = some (0, .charterCommit) := by decide +kernel

theorem witness_MaintenanceEndsByItsFlags :
    (maintained (asking plain .maintExit)).asks 0 .maintExit 0x5A
      ∧ (maintained (asking plain .maintExit)).admits 0
      ∧ (maintained (asking plain .maintExit)).maintains 0 charter
      ∧ (maintained (asking plain .maintExit)).imageQueue.any (fun e => e.isCharterWrite) = false
      ∧ (maintained plain).charterResults = [] ∧ (maintained plain).part.committed = false
      ∧ (maintained plain).part.charterAbsent = false
      ∧ (queued (maintained plain) (.charterWrite charter) .idle).imageQueue.any
          (fun e => e.isCharterWrite) = true
      ∧ EndBlock.partController ∈ (ending (maintained plain)).endsOf 0 := by decide +kernel

/-- A scrubber whose timer runs. -/
def scrubbing (x : Scrubber) : State := { plain with scrub := { x with timer := some 5 } }

/-- The visit of table 0's version 1 at an offset. -/
def visit (offset : Nat) (register : Word) : Visit :=
  { table := 0, number := 1, length := 3, pages := [0], check := some 0x1234, offset := offset
    register := register }

theorem witness_ScrubberRereadsSoundVersions :
    (scrubbing Scrubber.fresh).scrub.timer = some 5
      ∧ (scrubbing Scrubber.fresh).scrub.running = false
      ∧ (scrubbing { Scrubber.fresh with running := true }).scrub.running = true
      ∧ (plain.table 0).current = some (version 1 1 0) ∧ (version 1 1 0).damage = .clear
      ∧ (∀ u : TableId, u < 0 → ∀ w ∈ (plain.table u).current, w.damage ≠ .clear)
      ∧ (scrubbing { Scrubber.fresh with visit := some (visit 2 0) }).scrub.visit
          = some (visit 2 0)
      ∧ (scrubbing { Scrubber.fresh with visit := some (visit 2 0) }).waiting = []
      ∧ (scrubbing { Scrubber.fresh with visit := some (visit 2 0) }).reports = []
      ∧ (filling (.filling .zero) none).waiting ≠ [] ∧ (reported (.check 0 2)).reports ≠ []
      ∧ (∀ u : TableId, 0 < u → ∀ w ∈ (plain.table u).current, w.damage ≠ .clear)
      ∧ (scrubbing { Scrubber.fresh with due := true }).scrub.due = true
      ∧ (scrubbing Scrubber.fresh).scrub.due = false
      ∧ oddOnes (plain.versionWord [0] 2) = true ∧ 1 + 1 < 3 ∧ 3 ≤ 2 + 1
      ∧ (visit 2 0).check ≠ some (checkFeed 0 12)
      ∧ oddOnes (plain.versionWord [1] 0) = false
      ∧ (∀ w ∈ ((served (record none none none)).table 0).current, w.number = 1 →
          w.damage ≠ .clear)
      ∧ (∀ u : TableId, ((served (record none none none)).table u).current = none) := by
  decide +kernel

/-! ### States that obey the laws, and a step from them -/

/-- Its next command is a pin reset. -/
def stepping : State := plain.withCommand .pinReset

theorem witness_step : step stepping = .next (plain.enterReset .pin) := rfl

theorem witness_MemoryStaysCanonical : stepping.memoryCanonical := by decide +kernel

theorem witness_QueuesStayWithinCapacity : stepping.withinCapacity := by
  refine ⟨by decide +kernel, by decide +kernel, by decide +kernel, fun h => ?_⟩
  exact absurd h (by decide)

theorem witness_EveryPageStaysAccountedFor :
    ({ stepping with freePool := (List.range 128).drop 1 } : State).pagesAccounted
      ∧ stepping.loadInOrder ∧ stepping.poolAscending := by
  refine ⟨?_, ⟨fun h => absurd h (by decide), fun h => absurd h (by decide)⟩, ?_⟩
  · unfold State.pagesAccounted
    decide +kernel
  · unfold State.poolAscending
    decide +kernel

theorem witness_RolesStayLawful : stepping.rolesLawful := by
  have h : ∀ r : TableRecord, r.staged = none → r.retiring = none → r.lawful := by
    intro r hs hr
    refine ⟨?_, ?_, ?_, ?_⟩ <;> simp [hs, hr]
  intro t
  have hs : (stepping.table t).staged = none := by revert t; decide +kernel
  have hr : (stepping.table t).retiring = none := by revert t; decide +kernel
  exact h _ hs hr

theorem witness_SessionsStayLawful : stepping.sessionsLawful ∧ stepping.maintenanceLawful := by
  refine ⟨?_, by decide, by decide, by decide, fun h => absurd h (by decide)⟩
  unfold State.sessionsLawful
  decide +kernel

end Sys2Proof.Tests
end

namespace Sys2Proof.Machine

/-! ## The two commands and their owners -/

theorem exec_unbind_eq_serve (p : Port) (slot : Byte) (s : State) :
    exec (.unbind p slot) s = .next (s.serve p (.unbind slot) (unbindOwner p slot)) := rfl

theorem exec_seek_eq_serve (p : Port) (slot : Byte) (offset : Word) (s : State) :
    exec (.seek p slot offset) s
      = .next (s.serve p (.seek slot offset) (seekOwner p slot offset)) := rfl

theorem withBound_none {s : State} {p : Port} {c : SlotId}
    (work : Binding → State × Option Reply) (h : s.cursor p c = none) :
    withBound s p c work = refusing s .unbound := by
  simp [withBound, h]

section
variable {s : State} {p : Port} {slot : Byte} {offset : Word} {c : SlotId} {b : Binding}
  {v : Version} {isCurrent : Bool}

/-- Past the checks of R42, UNBIND's work is what it does with the slot's binding (R46). -/
theorem unbindOwner_eq_withBound (hm : s.part.state ≠ .maintenance) (hslot : slot.toNat = c.val) :
    unbindOwner p slot s = withBound s p c fun b =>
      answering ((s.setCursor p c none).unpin b.table b.version)
        (replyOk (byteOf b.table.val :: wordBytes b.version)) := by
  simp only [unbindOwner, outsideMaintenance_out _ hm, slotOperand_val hslot]

theorem unbindOwner_bound (hm : s.part.state ≠ .maintenance) (hslot : slot.toNat = c.val)
    (hb : s.cursor p c = some b) :
    unbindOwner p slot s = answering ((s.setCursor p c none).unpin b.table b.version)
      (replyOk (byteOf b.table.val :: wordBytes b.version)) := by
  rw [unbindOwner_eq_withBound hm hslot, withBound_some _ hb]

theorem unbindOwner_unbound (hm : s.part.state ≠ .maintenance) (hslot : slot.toNat = c.val)
    (hb : s.cursor p c = none) : unbindOwner p slot s = refusing s .unbound := by
  rw [unbindOwner_eq_withBound hm hslot, withBound_none _ hb]

/-- SEEK of a bound slot turns on the length of the version that the lookup of R41 finds (R47). -/
theorem seekOwner_bound (hm : s.part.state ≠ .maintenance) (hslot : slot.toNat = c.val)
    (hb : s.cursor p c = some b) (hl : s.lookup b.table b.version = some (v, isCurrent)) :
    seekOwner p slot offset s =
      if offset.toNat < v.length then
        answering (s.setCursor p c (some { b with offset := offset.toNat }))
          (replyOk (wordBytes v.number ++ bytesOfWord offset)
            { stale := !isCurrent, damaged := decide (v.damage ≠ Damage.clear) })
      else refusing s .range := by
  simp only [seekOwner, outsideMaintenance_out _ hm, slotOperand_val hslot, withBound_some _ hb,
    hl, bytesOfWord_ofNat_toNat, Version.damaged]

theorem seekOwner_unbound (hm : s.part.state ≠ .maintenance) (hslot : slot.toNat = c.val)
    (hb : s.cursor p c = none) : seekOwner p slot offset s = refusing s .unbound := by
  simp only [seekOwner, outsideMaintenance_out _ hm, slotOperand_val hslot, withBound_none _ hb]

end

/-! ## RING steps -/

/-- The remainder is not negative, so the step is it exactly, for a stride of either sign (R49). -/
theorem ringStep_cast (offset : Nat) (stride : Int) {length : Nat} (h : 1 ≤ length) :
    (ringStep offset stride length : Int) = ((offset : Int) + stride) % (length : Int) :=
  Int.toNat_of_nonneg (Int.emod_nonneg _ (by omega))

theorem ringStep_lt (offset : Nat) (stride : Int) {length : Nat} (h : 1 ≤ length) :
    ringStep offset stride length < length := by
  have hlt : ((offset : Int) + stride) % (length : Int) < length :=
    Int.emod_lt_of_pos _ (by omega)
  rw [← ringStep_cast offset stride h] at hlt
  exact_mod_cast hlt

/-- Only a LINEAR cursor stands at END (R40, R48). -/
theorem Binding.atEnd_of_mode_ne_linear {b : Binding} (length : Nat) (h : b.mode ≠ .linear) :
    b.atEnd length = false := by
  simp [Binding.atEnd, h]

/-! ## The statements settled -/

/-- Settles O22: the owner's work on the state with the lease renewed, for a bound and an unbound
slot. -/
theorem unbindUnpins : Obligations.UnbindUnpins := by
  rintro p slot tag c s hasks ⟨hadmits, hmaint⟩ hslot
  rw [exec_unbind_eq_serve]
  refine ⟨fun b hb => ?bound, fun hb => ?unbound⟩
  case bound =>
    exact congrArg _ (State.serve_admitted hasks hadmits (unbindOwner_bound hmaint hslot hb))
  case unbound =>
    exact congrArg _ (State.serve_admitted hasks hadmits (unbindOwner_unbound hmaint hslot hb))

/-- Settles O23: the length of the version found decides between the write of the offset and RANGE;
without a binding there is no version to look up. -/
theorem seekSetsTheOffset : Obligations.SeekSetsTheOffset := by
  constructor
  · rintro p slot offset tag c s b v isCurrent hasks ⟨hadmits, hmaint⟩ hslot hb hl
    have howner := seekOwner_bound (s := s.leaseRenewed p) (offset := offset) hmaint hslot hb hl
    rw [exec_seek_eq_serve]
    refine ⟨fun hin => ?inRange, fun hout => ?outOfRange⟩
    case inRange =>
      rw [if_pos hin] at howner
      exact congrArg _ (State.serve_admitted hasks hadmits howner)
    case outOfRange =>
      rw [if_neg (Nat.not_lt.mpr hout)] at howner
      exact congrArg _ (State.serve_admitted hasks hadmits howner)
  · rintro p slot offset tag c s hasks ⟨hadmits, hmaint⟩ hslot hb
    rw [exec_seek_eq_serve]
    exact congrArg _ (State.serve_admitted hasks hadmits (seekOwner_unbound hmaint hslot hb))

/-- Settles O24: the step is a remainder by the length, and END belongs to LINEAR alone. -/
theorem ringStepWrapsByTheLength : Obligations.RingStepWrapsByTheLength := by
  intro offset stride length hlength
  have hlt : Mode.step .ring offset stride length < length := ringStep_lt offset stride hlength
  refine ⟨ringStep_cast offset stride hlength, hlt, fun hone => ?_, by decide, fun b hring => ?_⟩
  · omega
  · exact b.atEnd_of_mode_ne_linear length (by simp [hring])

end Sys2Proof.Machine

namespace Sys2Proof.Machine

/-! ## DISCARD and its owner -/

theorem exec_discard_eq_serve (p : Port) (s : State) :
    exec (.discard p) s = .next (s.serve p .discard (discardOwner p)) := rfl

@[simp] theorem State.unpinOld_none (s : State) : s.unpinOld none = s := rfl

@[simp] theorem State.unpinOld_some (s : State) (b : Binding) :
    s.unpinOld (some b) = s.unpin b.table b.version := rfl

@[simp] theorem contextBytes_none : contextBytes none = [0xFF, 0, 0] := rfl

@[simp] theorem contextBytes_some (b : Binding) :
    contextBytes (some b) = byteOf b.table.val :: wordBytes b.version := rfl

section
variable {s : State} {p : Port}

theorem discardOwner_empty (hm : s.part.state ≠ .maintenance) (hs : s.stack p = []) :
    discardOwner p s = refusing s .stackEmpty := by
  simp only [discardOwner, outsideMaintenance_out _ hm, hs]

/-- With an entry on the stack DISCARD drops it, whatever it holds, and gives its pin back (R68). -/
theorem discardOwner_cons {x : Context} {rest : List Context} (hm : s.part.state ≠ .maintenance)
    (hs : s.stack p = x :: rest) :
    discardOwner p s = answering ((s.setStack p rest).unpinOld x)
      (replyOk (byteOf rest.length :: contextBytes x)) := by
  simp only [discardOwner, outsideMaintenance_out _ hm, hs]

end

/-- A DISCARD that is served with an entry on the stack, bound or unbound: the one argument for both. -/
theorem exec_discard_cons {p : Port} {tag : Byte} {s : State} {x : Context} {rest : List Context}
    (hasks : s.asks p .discard tag) (hserves : s.servesTables p) (hs : s.stack p = x :: rest) :
    exec (.discard p) s = .next ((((s.leaseRenewed p).setStack p rest).unpinOld x).respond p tag
      (replyOk (byteOf rest.length :: contextBytes x))) := by
  obtain ⟨hadmits, hmaint⟩ := hserves
  rw [exec_discard_eq_serve]
  exact congrArg _ (State.serve_admitted hasks hadmits (discardOwner_cons hmaint hs))

/-! ## The statement of the save stacks settled -/

/-- Settles O33: an empty stack is refused; an entry is dropped, and only a bound one holds a pin to
give back. -/
theorem discardDropsTheTop : Obligations.DiscardDropsTheTop := by
  intro p tag s hasks hserves
  refine ⟨fun hs => ?empty, fun rest hs => ?unbound, fun b rest hs => ?bound⟩
  case empty =>
    obtain ⟨hadmits, hmaint⟩ := hserves
    rw [exec_discard_eq_serve]
    exact congrArg _ (State.serve_admitted hasks hadmits (discardOwner_empty hmaint hs))
  case unbound => simpa using exec_discard_cons hasks hserves hs
  case bound => simpa using exec_discard_cons hasks hserves hs

end Sys2Proof.Machine

namespace Sys2Proof.Machine

/-! ## What a command can do to the state

Every command is a chain of elementary acts. The laws of the state are then proved once for each act
and not once for each command. -/

/-- What the laws of the directory read of a version: its number and its pages. -/
def Version.identity (v : Version) : Nat × List Nat := (v.number, v.pages)

/-- The second record holds the same versions in the same roles as the first. -/
structure TableRecord.SameVersions (r r' : TableRecord) : Prop where
  current : r'.current.map Version.identity = r.current.map Version.identity
  staged : r'.staged.map (fun st => st.version.identity) = r.staged.map (fun st => st.version.identity)
  retiring : r'.retiring.map Version.identity = r.retiring.map Version.identity

/-- A record may follow another: it is lawful where that was, and while nothing is STAGED no role is
filled. -/
structure TableRecord.Follows (r r' : TableRecord) : Prop where
  lawful : r.lawful → r'.lawful
  vacant : r.staged = none →
    r'.staged = none ∧ (r.retiring = none → r'.retiring = none)
      ∧ (r.current = none → r'.current = none)

/-- The state s with those fields of d that no law of the state reads. -/
def State.withQuietOf (s d : State) : State :=
  { s with
    engines := d.engines, ends := d.ends, cursors := d.cursors, memEpoch := d.memEpoch
    arbiter := d.arbiter, notices := d.notices, reports := d.reports, workList := d.workList
    headWork := d.headWork, scrub := d.scrub, imageWork := d.imageWork
    charterResults := d.charterResults, store := d.store, charterSlots := d.charterSlots
    supply := d.supply }

/-- The elementary acts, each with what its place in the model guarantees. -/
inductive State.Act (s : State) : State → Prop
  /-- A change that no law reads. -/
  | quiet (d : State) : State.Act s (s.withQuietOf d)
  /-- Table memory is written. -/
  | memory (m : Memory) (h : Memory.wf s.mem → Memory.wf m) : State.Act s { s with mem := m }
  /-- An event queue changes within its bound. -/
  | queue (p : Port) (q : EventQueue) (h : (s.queue p).bounded → q.bounded) :
    State.Act s (s.setQueue p q)
  /-- A save stack changes within its capacity. -/
  | stack (p : Port) (x : List Context)
    (h : (s.stack p).length ≤ Config.stackCapacity → x.length ≤ Config.stackCapacity) :
    State.Act s (s.setStack p x)
  /-- Entries leave the image store queue. -/
  | dequeue (l : List QueueEntry) (h : l.Sublist s.imageQueue) :
    State.Act s { s with imageQueue := l }
  /-- A request outside MAINTENANCE joins the image store queue, which has room. -/
  | enqueue (e : QueueEntry) (h : s.imageQueue.length < Config.queueCapacity)
    (hm : s.part.state ≠ .maintenance) : State.Act s { s with imageQueue := s.imageQueue ++ [e] }
  /-- A charter write joins the image store queue in MAINTENANCE, where none waits. -/
  | enqueueCharter (e : QueueEntry) (he : e.isCharterWrite = true)
    (h : s.imageQueue.any (·.isCharterWrite) = false) (hm : s.part.state = .maintenance) :
    State.Act s { s with imageQueue := s.imageQueue ++ [e] }
  /-- A session goes on, or ends. -/
  | session (p : Port) (x : Session)
    (ht : (s.session p).isOpen = (s.session p).leaseTimer.isSome → x.isOpen = x.leaseTimer.isSome)
    (hn : x.number = (s.session p).number) (ho : x.isOpen = true → (s.session p).isOpen = true) :
    State.Act s (s.setSession p x)
  /-- A session opens (R134). -/
  | openSession (p : Port) (lease : Nat) (hr : s.part.state ≠ .reset) (hl : s.part.state ≠ .loading)
    (hm : s.part.state = .maintenance → s.part.maintPort = some p) :
    State.Act s (s.setSession p ((s.session p).opened lease))
  /-- A table record changes, and keeps its pages. -/
  | record (t : TableId) (r : TableRecord) (hp : r.pages.Perm (s.table t).pages)
    (hf : (s.table t).Follows r) : State.Act s (s.setTable t r)
  /-- A version is released with its pages (R12). -/
  | release (t : TableId) (r : TableRecord) (pages faulty : List Nat)
    (hp : (s.table t).pages.Perm (pages ++ r.pages)) (hf : (s.table t).Follows r) :
    State.Act s ((s.releasePages pages faulty).setTable t r)
  /-- A STAGED version takes pages from the pool (R9). -/
  | take (t : TableId) (r : TableRecord) (n : Nat) (hn : n ≤ s.freePool.length)
    (hp : r.pages.Perm (s.freePool.take n ++ (s.table t).pages)) (hl : (s.table t).lawful → r.lawful)
    (hs : (s.part.state ≠ .reset ∧ s.part.state ≠ .loading) ∨ (s.table t).staged ≠ none) :
    State.Act s (({ s with freePool := s.freePool.drop n } : State).setTable t r)
  /-- MAINTENANCE begins (R161). -/
  | enterMaintenance (p : Port) (c : Charter) (hq : s.imageQueue = [])
    (ho : ∀ q, q ≠ p → (s.session q).isOpen = false) :
    State.Act s { s with part := { s.part with
      state := .maintenance, maintPort := some p, working := some c, committed := false } }
  /-- The working copy or the charter-committed flag changes in MAINTENANCE (R163, R164). -/
  | charter (w : Option Charter) (b : Bool) (hm : s.part.state = .maintenance)
    (hw : w.isSome = s.part.working.isSome) :
    State.Act s { s with part := { s.part with working := w, committed := b } }
  /-- MAINTENANCE ends without a committed charter (R165, R166). -/
  | leaveMaintenance (h : s.part.committed = false) : State.Act s s.leaveMaintenance
  | reset (k : ResetKind) : State.Act s (s.partReset k)
  | releaseReset (millivolts : Nat) : State.Act s (s.releaseReset millivolts)
  | selectCharter : State.Act s s.selectCharter
  | loadTable (disturbed : List (Nat × Word)) : State.Act s (s.loadTable disturbed)

/-- One state comes from another by acts. -/
abbrev State.Acts : State → State → Prop := Relation.ReflTransGen State.Act

/-! ### Records -/

/-- The pages of a record are those of the identities of its versions. -/
theorem TableRecord.pages_eq_of_identity (r : TableRecord) :
    r.pages = ((r.current.map Version.identity).map Prod.snd).getD []
      ++ ((r.staged.map (fun st => st.version.identity)).map Prod.snd).getD []
      ++ ((r.retiring.map Version.identity).map Prod.snd).getD [] := by
  unfold TableRecord.pages
  cases r.current <;> cases r.staged <;> cases r.retiring <;> rfl

/-- Whether a record is lawful is a matter of the identities of its versions. -/
theorem TableRecord.lawful_iff_identity (r : TableRecord) :
    r.lawful ↔
      ((r.retiring.map Version.identity).isSome = true →
          (r.current.map Version.identity).isSome = true)
        ∧ (∀ a b, r.current.map Version.identity = some a →
            r.retiring.map Version.identity = some b → a.1 ≠ b.1)
        ∧ (∀ a b, r.staged.map (fun st => st.version.identity) = some a →
            r.current.map Version.identity = some b → a.1 ≠ b.1)
        ∧ (∀ a b, r.staged.map (fun st => st.version.identity) = some a →
            r.retiring.map Version.identity = some b → a.1 ≠ b.1) := by
  cases hc : r.current <;> cases hs : r.staged <;> cases hr : r.retiring <;>
    simp [TableRecord.lawful, hc, hs, hr, Version.identity]

theorem TableRecord.SameVersions.pages {r r' : TableRecord} (h : r.SameVersions r') :
    r'.pages = r.pages := by
  rw [TableRecord.pages_eq_of_identity, h.current, h.staged, h.retiring,
    ← TableRecord.pages_eq_of_identity]

theorem TableRecord.SameVersions.follows {r r' : TableRecord} (h : r.SameVersions r') :
    r.Follows r' where
  lawful hr := by
    rw [TableRecord.lawful_iff_identity] at hr ⊢
    rwa [h.current, h.staged, h.retiring]
  vacant hn := by
    have hs := h.staged
    have hc := h.current
    have hr := h.retiring
    refine ⟨?_, fun h0 => ?_, fun h0 => ?_⟩
    · simpa [hn] using hs
    · simpa [h0] using hr
    · simpa [h0] using hc

/-! ### Laws over acts -/

/-- Where a table record is replaced, the other tables keep theirs. -/
theorem State.table_setTable (s : State) (t u : TableId) (r : TableRecord) :
    (s.setTable t r).table u = if u = t then r else s.table u := by
  split
  next h => rw [h, State.table_setTable_self]
  next h => exact State.table_setTable_other s t r h

theorem State.queue_setQueue (s : State) (p q : Port) (x : EventQueue) :
    (s.setQueue p x).queue q = if q = p then x else s.queue q := by
  split
  next h => rw [h, State.queue_setQueue_self]
  next h => exact State.queue_setQueue_other s p x h

theorem State.stack_setStack (s : State) (p q : Port) (x : List Context) :
    (s.setStack p x).stack q = if q = p then x else s.stack q := by
  split
  next h => rw [h, State.stack_setStack_self]
  next h => exact State.stack_setStack_other s p x h

theorem State.session_setSession (s : State) (p q : Port) (x : Session) :
    (s.setSession p x).session q = if q = p then x else s.session q := by
  split
  next h => rw [h, State.session_setSession_self]
  next h => exact State.session_setSession_other s p x h

/-- A law that every act keeps is kept by every chain of acts. -/
theorem State.Acts.keeps {law : State → Prop} (h : ∀ s t, State.Act s t → law s → law t)
    {s t : State} (ha : State.Acts s t) (hs : law s) : law t := by
  induction ha with
  | refl => exact hs
  | tail _ hact ih => exact h _ _ hact ih

/-! ### The frames of leaveMaintenance, loadTable and the reset -/

theorem State.leaveMaintenance_frame (s : State) :
    s.leaveMaintenance = { s with
      scrub := s.leaveMaintenance.scrub
      part := { s.part with
        state := if s.part.charterAbsent then .unchartered else .service
        maintPort := none, working := none, loading := .idle } } := by
  unfold State.leaveMaintenance State.enterService
  by_cases h : s.part.charterAbsent <;> simp [h]

theorem Memory.wf_nil : Memory.wf [] := by simp [Memory.wf]

/-- What a load of one table can do: a result without an image is recorded, or an image is copied into
the lowest free pages. -/
theorem State.loadOne_cases (s : State) (t : TableId) (d : List (Nat × Word)) :
    (∃ result, s.loadOne t d = s.loadFailed t result)
      ∨ ∃ h words, pagesFor h.length ≤ s.freePool.length
        ∧ s.loadOne t d = ({ s with freePool := s.freePool.drop (pagesFor h.length) } :
            State).copyImage t h (s.freePool.take (pagesFor h.length)) words := by
  unfold State.loadOne
  dsimp only
  split
  · exact .inl ⟨_, rfl⟩
  split
  · exact .inl ⟨_, rfl⟩
  split
  · exact .inl ⟨_, rfl⟩
  split
  · exact .inl ⟨_, rfl⟩
  split
  next ha =>
    obtain ⟨hn, rfl, rfl⟩ := State.allocate_some ha
    exact .inr ⟨_, _, hn, rfl⟩
  · exact .inl ⟨_, rfl⟩

/-- LOAD_TABLE outside its turn does nothing; in its turn it loads one table and goes on. -/
theorem State.loadTable_cases (s : State) (d : List (Nat × Word)) :
    s.loadTable d = s
      ∨ ∃ t, s.part.state = .loading ∧ s.part.loading = .table t
        ∧ s.loadTable d = (s.loadOne t d).loadNext t := by
  unfold State.loadTable
  split
  · split
    · exact .inr ⟨_, ‹_›, ‹_›, rfl⟩
    · exact .inl rfl
    · exact .inl rfl
  · exact .inl rfl

/-- A copied image: its words are in memory, and the pages are the CURRENT version's or free again. -/
theorem State.copyImage_cases (s : State) (t : TableId) (h : TableHeader) (pages : List Nat)
    (words : List Word) :
    let s1 := s.writeWords .imageStore pages 0 words
    s.copyImage t h pages words = s1.setTable t { s.table t with
        current := some (h.loadedVersion pages), nextVersion := nextNumber h.version
        loadResult := .loaded }
      ∨ s.copyImage t h pages words
        = (s1.releasePages pages []).setTable t { s.table t with loadResult := .badImage } := by
  unfold State.copyImage State.loadFailed
  dsimp only
  split
  · left; rw [State.writeWords_frame]; rfl
  · right; rw [State.writeWords_frame]; rfl

/-- The fields of a loaded state that the laws read. -/
theorem State.loadNext_part (s : State) (t : TableId) :
    (∃ h : t.val + 1 < 32, (s.loadNext t).part = { s.part with loading := .table ⟨t.val + 1, h⟩ })
      ∨ ¬ t.val + 1 < 32 ∧ (s.loadNext t).part = { s.part with
          state := if s.part.charterAbsent then .unchartered else .service, loading := .idle } := by
  unfold State.loadNext State.enterService
  by_cases h : t.val + 1 < 32
  · exact .inl ⟨h, by simp [h]⟩
  · exact .inr ⟨h, by by_cases ha : s.part.charterAbsent <;> simp [h, ha]⟩

theorem State.releaseReset_cases (s : State) (millivolts : Nat) :
    s.releaseReset millivolts = s ∨ s.part.state = .reset ∧ s.releaseReset millivolts = { s with
      engines := (s.releaseReset millivolts).engines
      supply := (s.releaseReset millivolts).supply
      part := { s.part with state := .loading, loading := .charter } } := by
  unfold State.releaseReset
  split
  next h => exact .inr ⟨h.1, rfl⟩
  next => exact .inl rfl

theorem State.selectCharter_cases (s : State) :
    s.selectCharter = s ∨ (s.part.state = .loading ∧ s.part.loading = .charter)
      ∧ s.selectCharter = { s with
        tables := mapVector TableRecord.fresh s.charterSlots.inForce.1.tables
        part := { s.part with
          charter := s.charterSlots.inForce.1, charterAbsent := s.charterSlots.inForce.2
          loading := .table 0 } } := by
  unfold State.selectCharter
  split
  next h => exact .inr ⟨h, rfl⟩
  next => exact .inl rfl

/-! ### Table memory -/

theorem State.wf_loadTable {s : State} (d : List (Nat × Word)) (hs : s.memoryCanonical) :
    (s.loadTable d).memoryCanonical := by
  obtain h | ⟨t, -, -, h⟩ := s.loadTable_cases d
  · rwa [h]
  · rw [h, State.loadNext_frame]
    obtain ⟨result, h⟩ | ⟨image, words, -, h⟩ := s.loadOne_cases t d
    · rw [h]; exact hs
    · rw [h]
      obtain h | h := State.copyImage_cases _ t image _ words <;> rw [h] <;>
        exact State.wf_writeWords _ _ _ _ _ hs

theorem State.Act.memoryCanonical {s t : State} (h : State.Act s t) (hs : s.memoryCanonical) :
    t.memoryCanonical := by
  cases h with
  | memory m hm => exact hm hs
  | leaveMaintenance => rw [State.leaveMaintenance_frame]; exact hs
  | reset k => exact Memory.wf_nil
  | releaseReset v => obtain h | ⟨-, h⟩ := s.releaseReset_cases v <;> rw [h] <;> exact hs
  | selectCharter => obtain h | ⟨-, h⟩ := s.selectCharter_cases <;> rw [h] <;> exact hs
  | loadTable d => exact State.wf_loadTable d hs
  | _ => exact hs

/-! ### Queues and stacks -/

theorem State.loadTable_outside (s : State) (d : List (Nat × Word)) :
    (s.loadTable d).events = s.events ∧ (s.loadTable d).saveStacks = s.saveStacks
      ∧ (s.loadTable d).imageQueue = s.imageQueue ∧ (s.loadTable d).sessions = s.sessions
      ∧ (s.loadTable d).pending = s.pending := by
  obtain h | ⟨t, -, -, h⟩ := s.loadTable_cases d
  · rw [h]; simp
  · rw [h, State.loadNext_frame]
    obtain ⟨result, h⟩ | ⟨image, words, -, h⟩ := s.loadOne_cases t d
    · rw [h]; simp [State.loadFailed]
    · rw [h]
      obtain h | h := State.copyImage_cases _ t image _ words <;> rw [h, State.writeWords_frame] <;>
        simp

/-- The part state after LOAD_TABLE is never MAINTENANCE unless it was before. -/
theorem State.loadTable_part (s : State) (d : List (Nat × Word)) :
    s.loadTable d = s
      ∨ s.part.state = .loading ∧ (s.loadTable d).part = { s.part with
          state := (s.loadTable d).part.state, loading := (s.loadTable d).part.loading }
        ∧ ((s.loadTable d).part.state = .loading ∨ (s.loadTable d).part.state = .unchartered
          ∨ (s.loadTable d).part.state = .service) := by
  obtain h | ⟨t, hp, -, h⟩ := s.loadTable_cases d
  · exact .inl h
  · right
    have hone : (s.loadOne t d).part = s.part := by
      obtain ⟨result, h⟩ | ⟨image, words, -, h⟩ := s.loadOne_cases t d
      · rw [h]; rfl
      · rw [h]
        obtain h | h := State.copyImage_cases _ t image _ words <;>
          rw [h, State.writeWords_frame] <;> rfl
    rw [h]
    obtain ⟨_, hx⟩ | ⟨_, hx⟩ := (s.loadOne t d).loadNext_part t <;> rw [hx, hone]
    · exact ⟨hp, rfl, .inl hp⟩
    · refine ⟨hp, rfl, .inr ?_⟩
      by_cases ha : s.part.charterAbsent <;> simp [ha]

/-- The law of capacities reads the queues, the stacks and whether the part is in MAINTENANCE. -/
theorem State.withinCapacity_congr {s t : State} (he : t.events = s.events)
    (hst : t.saveStacks = s.saveStacks) (hi : t.imageQueue = s.imageQueue)
    (hm : t.part.state = s.part.state) (hs : s.withinCapacity) : t.withinCapacity := by
  have hq : t.queue = s.queue := by funext p; simp only [State.queue, he]
  have hstack : t.stack = s.stack := by funext p; simp only [State.stack, hst]
  unfold State.withinCapacity
  rw [hq, hstack, hi, hm]
  exact hs

theorem State.Act.withinCapacity {s t : State} (h : State.Act s t) (hs : s.withinCapacity) :
    t.withinCapacity := by
  obtain ⟨hq, hstack, himage, hmaint⟩ := id hs
  cases h with
  | queue p q h =>
    refine ⟨fun u => ?_, hstack, himage, hmaint⟩
    rw [State.queue_setQueue]
    split
    next => exact h (hq p)
    next => exact hq u
  | stack p x h =>
    refine ⟨hq, fun u => ?_, himage, hmaint⟩
    rw [State.stack_setStack]
    split
    next => exact h (hstack p)
    next => exact hstack u
  | dequeue l h =>
    exact ⟨hq, hstack, h.length_le.trans himage, fun hm e he => hmaint hm e (h.subset he)⟩
  | enqueue e h hm =>
    refine ⟨hq, hstack, ?_, fun h => absurd h hm⟩
    simp only [List.length_append, List.length_singleton]
    omega
  | enqueueCharter e he h hm =>
    have hnone : s.imageQueue = [] := by
      refine List.eq_nil_iff_forall_not_mem.mpr fun x hx => ?_
      have := hmaint hm x hx
      simp only [List.any_eq_false] at h
      exact h x hx this
    refine ⟨hq, hstack, by simp [hnone, Config.queueCapacity], fun _ x hx => ?_⟩
    simp only [hnone, List.nil_append, List.mem_singleton] at hx
    rwa [hx]
  | enterMaintenance p c hnone => exact ⟨hq, hstack, himage, fun _ => by simp [hnone]⟩
  | leaveMaintenance =>
    rw [State.leaveMaintenance_frame]
    refine ⟨hq, hstack, himage, fun h => ?_⟩
    by_cases ha : s.part.charterAbsent <;> simp [ha] at h
  | reset k =>
    refine ⟨fun p => ?_, fun p => ?_, by simp [State.partReset], fun _ => by simp [State.partReset]⟩
    · rw [State.partReset_queue]; exact EventQueue.bounded_fresh
    · rw [State.partReset_stack]; simp
  | releaseReset v =>
    obtain h | ⟨-, h⟩ := s.releaseReset_cases v
    · rwa [h]
    · rw [h]; exact ⟨hq, hstack, himage, fun hm => by simp at hm⟩
  | selectCharter =>
    obtain h | ⟨-, h⟩ := s.selectCharter_cases <;> rw [h]
    · exact hs
    · exact State.withinCapacity_congr (s := s) rfl rfl rfl rfl hs
  | loadTable d =>
    obtain ⟨he, hst, hi, -, -⟩ := s.loadTable_outside d
    refine ⟨fun p => ?_, fun p => ?_, by rwa [hi], fun hm => ?_⟩
    · unfold State.queue; rw [he]; exact hq p
    · unfold State.stack; rw [hst]; exact hstack p
    · rw [hi]
      obtain h | ⟨-, -, hx⟩ := s.loadTable_part d
      · rw [h] at hm; exact hmaint hm
      · rw [hm] at hx; simp at hx
  | _ => exact hs

/-! ### Sessions and maintenance -/

theorem nextSession_bounds (n : Nat) : 1 ≤ nextSession n ∧ nextSession n ≤ 255 := by
  unfold nextSession; split <;> omega

/-- The laws of sessions and maintenance read the sessions and four fields of the part controller. -/
theorem State.sessionLaws_congr {s t : State} (h : t.sessions = s.sessions)
    (hp : t.part.state = s.part.state) (hport : t.part.maintPort = s.part.maintPort)
    (hw : t.part.working = s.part.working) (hc : t.part.committed = s.part.committed)
    (hs : s.sessionsLawful ∧ s.maintenanceLawful) :
    t.sessionsLawful ∧ t.maintenanceLawful := by
  have hx : t.session = s.session := by funext p; simp only [State.session, h]
  unfold State.sessionsLawful State.maintenanceLawful
  rw [hx, hp, hport, hw, hc]
  exact hs

theorem State.Act.sessionLaws {s t : State} (h : State.Act s t)
    (hs : s.sessionsLawful ∧ s.maintenanceLawful) : t.sessionsLawful ∧ t.maintenanceLawful := by
  obtain ⟨hl, hport, hwork, hcomm, hother⟩ := id hs
  cases h with
  | session p x ht hn ho =>
    refine ⟨fun q => ?_, hport, hwork, hcomm, fun hm q hq => ?_⟩
    · rw [State.session_setSession]
      split
      next =>
        obtain ⟨h1, h2, h3, h4⟩ := hl p
        exact ⟨ht h1, fun h => h2 (ho h), hn ▸ h3, fun h => hn ▸ h4 (ho h)⟩
      next => exact hl q
    · rw [State.session_setSession]
      split
      next h => subst h; have := hother hm q hq; grind
      next => exact hother hm q hq
  | openSession p lease hr hload hm =>
    refine ⟨fun q => ?_, hport, hwork, hcomm, fun hst q hq => ?_⟩
    · rw [State.session_setSession]
      split
      next =>
        obtain ⟨h1, h2⟩ := nextSession_bounds (s.session p).number
        exact ⟨rfl, fun _ => ⟨hr, hload⟩, h2, fun _ => h1⟩
      next => exact hl q
    · rw [State.session_setSession]
      split
      next h => subst h; exact absurd (hm hst) hq
      next => exact hother hst q hq
  | enterMaintenance p c hq ho =>
    refine ⟨fun q => ⟨(hl q).1, fun _ => by simp, (hl q).2.2⟩, by simp, by simp, by simp,
      fun _ q hq => ho q fun h => hq (by rw [h])⟩
  | charter w b hm hw =>
    exact ⟨hl, hport, by simpa [hw] using hwork, fun _ => hm, hother⟩
  | leaveMaintenance hc =>
    rw [State.leaveMaintenance_frame]
    refine ⟨fun q => ⟨(hl q).1, fun _ => ?_, (hl q).2.2⟩, ?_, ?_, ?_, ?_⟩ <;>
      by_cases ha : s.part.charterAbsent <;> simp [ha, hc]
  | reset k =>
    refine ⟨fun q => ?_, ?_⟩
    · rw [State.partReset_session]
      obtain ⟨h1, h2⟩ := Session.atReset_closed (s.session q) k
      have hn : ((s.session q).atReset k).number ≤ 255 := by
        cases k <;> simp [Session.atReset, Session.fresh, (hl q).2.2.1]
      simp [h1, h2, hn]
    · have hpart : (s.partReset k).part = s.part.atReset k := rfl
      unfold State.maintenanceLawful
      rw [hpart]
      cases k <;> simp [PartController.atReset, PartController.fresh]
  | releaseReset v =>
    obtain h | ⟨hst, h⟩ := s.releaseReset_cases v
    · rwa [h]
    · rw [h]
      refine ⟨fun q => ⟨(hl q).1, fun ho => ?_, (hl q).2.2⟩, ?_, ?_, ?_, by simp⟩
      · exact absurd hst ((hl q).2.1 ho).1
      · simpa [hst] using hport
      · simpa [hst] using hwork
      · simpa [hst] using hcomm
  | selectCharter =>
    obtain h | ⟨-, h⟩ := s.selectCharter_cases <;> rw [h]
    · exact hs
    · exact State.sessionLaws_congr (s := s) rfl rfl rfl rfl rfl hs
  | loadTable d =>
    obtain ⟨-, -, -, hse, -⟩ := s.loadTable_outside d
    obtain h | ⟨hst, hpart, hx⟩ := s.loadTable_part d
    · rwa [h]
    · have hsession : (s.loadTable d).session = s.session := by
        funext p; simp only [State.session, hse]
      have hclosed (q : Port) : (s.session q).isOpen = false := by
        have := (hl q).2.1
        grind
      have hne : (s.loadTable d).part.state ≠ .maintenance := by grind
      unfold State.sessionsLawful State.maintenanceLawful
      rw [hsession, hpart]
      refine ⟨fun q => ⟨(hl q).1, by simp [hclosed], (hl q).2.2⟩, ?_, ?_, ?_, fun h => absurd h hne⟩
      · simpa [hst, hne] using hport
      · simpa [hst, hne] using hwork
      · simpa [hst, hne] using hcomm
  | _ => exact hs

/-! ### Roles and the order of loading -/

/-- A vacant record follows every record. -/
theorem TableRecord.lawful_of_vacant {r : TableRecord} (h : r.vacant) : r.lawful := by
  obtain ⟨hc, hs, hr⟩ := h
  simp [TableRecord.lawful, hc, hs, hr]

theorem TableRecord.fresh_vacant (e : TableEntry) : (TableRecord.fresh e).vacant := ⟨rfl, rfl, rfl⟩

/-- While a part is in RESET or waits for its charter, a law of loading says that every table is
vacant; while it loads, that none is staged. -/
theorem State.loadInOrder_congr {s t : State} (ht : t.tables = s.tables)
    (hp : t.part.state = s.part.state) (hl : t.part.loading = s.part.loading)
    (hs : s.loadInOrder) : t.loadInOrder := by
  have hx : t.table = s.table := by funext u; simp only [State.table, ht]
  unfold State.loadInOrder
  rw [hx, hp, hl]
  exact hs

/-- Outside RESET and LOADING the order of loading says nothing. -/
theorem State.loadInOrder_of_state {s : State} (hr : s.part.state ≠ .reset)
    (hl : s.part.state ≠ .loading) : s.loadInOrder := ⟨fun h => absurd h hr, fun h => absurd h hl⟩

/-- A table record may be replaced by one that follows it. -/
theorem State.loadInOrder_setTable {s : State} {t : TableId} {r : TableRecord}
    (hf : s.part.state = .reset ∨ s.part.state = .loading → (s.table t).staged = none →
      r.staged = none ∧ ((s.table t).retiring = none → r.retiring = none)
        ∧ ((s.table t).current = none → r.current = none))
    (hs : s.loadInOrder) : (s.setTable t r).loadInOrder := by
  obtain ⟨hreset, hload⟩ := hs
  refine ⟨fun hst u => ?_, fun hst => ?_⟩
  · rw [State.table_setTable]
    split
    next =>
      obtain ⟨hc, hsg, hr⟩ := hreset hst t
      obtain ⟨h1, h2, h3⟩ := hf (.inl hst) hsg
      exact ⟨h3 hc, h1, h2 hr⟩
    next => exact hreset hst u
  · have hx := hload hst
    simp only [State.setTable_part]
    cases hl : s.part.loading with
    | idle => trivial
    | charter =>
      rw [hl] at hx
      intro u
      rw [State.table_setTable]
      split
      next =>
        obtain ⟨hc, hsg, hr⟩ := hx t
        obtain ⟨h1, h2, h3⟩ := hf (.inr hst) hsg
        exact ⟨h3 hc, h1, h2 hr⟩
      next => exact hx u
    | table t0 =>
      rw [hl] at hx
      intro u
      rw [State.table_setTable]
      split
      next h =>
        obtain ⟨hsg, hr, hc⟩ := hx t
        obtain ⟨h1, h2, h3⟩ := hf (.inr hst) hsg
        exact ⟨h1, h2 hr, fun hle => h3 (hc (h ▸ hle))⟩
      next => exact hx u

/-- What the order of loading says of the tables when LOAD_TABLE takes its turn. -/
theorem State.loadInOrder_turn {s : State} {t : TableId} (hs : s.loadInOrder)
    (hst : s.part.state = .loading) (hl : s.part.loading = .table t) (u : TableId) :
    (s.table u).staged = none ∧ (s.table u).retiring = none
      ∧ (t ≤ u → (s.table u).current = none) := by
  have := hs.2 hst
  rw [hl] at this
  exact this u

/-- The tables after the load of one: only that table's record changes, in its CURRENT version. -/
theorem State.loadOne_table (s : State) (t : TableId) (d : List (Nat × Word)) :
    (∀ u, u ≠ t → (s.loadOne t d).table u = s.table u)
      ∧ ((s.loadOne t d).table t).staged = (s.table t).staged
      ∧ ((s.loadOne t d).table t).retiring = (s.table t).retiring
      ∧ (s.loadOne t d).part = s.part := by
  obtain ⟨result, h⟩ | ⟨image, words, -, h⟩ := s.loadOne_cases t d
  · rw [h]
    unfold State.loadFailed
    refine ⟨fun u hu => State.table_setTable_other s t _ hu, ?_, ?_, rfl⟩ <;>
      rw [State.table_setTable_self]
  · rw [h]
    obtain h | h := State.copyImage_cases _ t image _ words <;> rw [h, State.writeWords_frame] <;>
      refine ⟨fun u hu => State.table_setTable_other _ t _ hu, ?_, ?_, rfl⟩ <;>
      rw [State.table_setTable_self] <;> rfl

theorem State.loadInOrder_loadTable {s : State} (d : List (Nat × Word)) (hs : s.loadInOrder) :
    (s.loadTable d).loadInOrder := by
  obtain h | ⟨t, hst, hl, h⟩ := s.loadTable_cases d
  · rwa [h]
  obtain ⟨hother, hstaged, hretiring, hpart⟩ := s.loadOne_table t d
  have hturn := State.loadInOrder_turn hs hst hl
  have htables : (s.loadTable d).table = (s.loadOne t d).table := by
    rw [h, State.loadNext_frame]; rfl
  have hnone (u : TableId) : ((s.loadOne t d).table u).staged = none
      ∧ ((s.loadOne t d).table u).retiring = none := by
    obtain ⟨h1, h2, -⟩ := hturn u
    by_cases hu : u = t
    · subst hu; exact ⟨hstaged.trans h1, hretiring.trans h2⟩
    · rw [hother u hu]; exact ⟨h1, h2⟩
  obtain ⟨hlt, hx⟩ | ⟨-, hx⟩ := (s.loadOne t d).loadNext_part t <;> rw [← h, hpart] at hx
  · refine ⟨fun h => ?_, fun _ => ?_⟩
    · rw [hx, hst] at h; cases h
    · rw [hx]
      intro u
      rw [htables]
      refine ⟨(hnone u).1, (hnone u).2, fun hle => ?_⟩
      have htu : t.val < u.val := hle
      rw [hother u fun e => absurd htu (by rw [e]; exact lt_irrefl _)]
      exact (hturn u).2.2 (Fin.le_def.mpr htu.le)
  · apply State.loadInOrder_of_state <;> rw [hx] <;>
      by_cases ha : s.part.charterAbsent <;> simp [ha]

theorem State.Act.loadInOrder {s t : State} (h : State.Act s t) (hs : s.loadInOrder) :
    t.loadInOrder := by
  cases h with
  | record t r _ hf => exact State.loadInOrder_setTable (fun _ => hf.vacant) hs
  | release t r pages faulty _ hf =>
    exact State.loadInOrder_setTable (s := s.releasePages pages faulty) (fun _ => hf.vacant) hs
  | take t r n _ _ _ h =>
    refine State.loadInOrder_setTable (s := { s with freePool := _ }) (fun hst hn => ?_) hs
    obtain ⟨hr, hl⟩ | h := h
    · exact absurd hst (by simp [hr, hl])
    · exact absurd hn h
  | enterMaintenance => exact State.loadInOrder_of_state (by simp) (by simp)
  | leaveMaintenance =>
    rw [State.leaveMaintenance_frame]
    apply State.loadInOrder_of_state <;> by_cases ha : s.part.charterAbsent <;> simp [ha]
  | reset k =>
    have hvac (u : TableId) : ((s.partReset k).table u).vacant := by
      rw [State.partReset_table]; exact TableRecord.atReset_vacant _ k
    refine ⟨fun _ => hvac, fun hst => ?_⟩
    have hl : (s.partReset k).part.loading = .charter := by
      cases k <;> simp [State.partReset, PartController.atReset, PartController.fresh] at hst ⊢
    rw [hl]
    exact hvac
  | releaseReset v =>
    obtain h | ⟨hst, h⟩ := s.releaseReset_cases v
    · rwa [h]
    · rw [h]; exact ⟨fun h => by simp at h, fun _ => hs.1 hst⟩
  | selectCharter =>
    obtain h | ⟨⟨hst, hl⟩, h⟩ := s.selectCharter_cases
    · rwa [h]
    · have hvac (u : TableId) : (s.selectCharter.table u).vacant := by
        rw [State.selectCharter_table hst hl]; exact TableRecord.fresh_vacant _
      have hstate : s.selectCharter.part.state = .loading := by rw [h]; exact hst
      have hload : s.selectCharter.part.loading = .table 0 := by rw [h]
      refine ⟨fun h => ?_, fun _ => ?_⟩
      · rw [hstate] at h; cases h
      · rw [hload]; exact fun u => ⟨(hvac u).2.1, (hvac u).2.2, fun _ => (hvac u).1⟩
  | loadTable d => exact State.loadInOrder_loadTable d hs
  | _ => exact hs

/-- A record with a CURRENT version alone is lawful. -/
theorem TableRecord.lawful_of_current_only {r : TableRecord} (hs : r.staged = none)
    (hr : r.retiring = none) : r.lawful := by simp [TableRecord.lawful, hs, hr]

theorem State.rolesLawful_setTable {s : State} {t : TableId} {r : TableRecord} (hr : r.lawful)
    (hs : s.rolesLawful) : (s.setTable t r).rolesLawful := by
  intro u
  rw [State.table_setTable]
  split
  next => exact hr
  next => exact hs u

theorem State.Act.rolesLawful {s t : State} (h : State.Act s t) (ho : s.loadInOrder)
    (hs : s.rolesLawful) : t.rolesLawful := by
  cases h with
  | record t r _ hf => exact State.rolesLawful_setTable (hf.lawful (hs t)) hs
  | release t r pages faulty _ hf =>
    exact State.rolesLawful_setTable (s := s.releasePages pages faulty) (hf.lawful (hs t)) hs
  | take t r n _ _ hl h =>
    exact State.rolesLawful_setTable (s := { s with freePool := _ }) (hl (hs t)) hs
  | leaveMaintenance => rw [State.leaveMaintenance_frame]; exact hs
  | reset k =>
    intro u
    rw [State.partReset_table]
    exact TableRecord.lawful_of_vacant (TableRecord.atReset_vacant _ k)
  | releaseReset v =>
    obtain h | ⟨hst, h⟩ := s.releaseReset_cases v <;> rw [h] <;> exact hs
  | selectCharter =>
    obtain h | ⟨⟨hst, hl⟩, h⟩ := s.selectCharter_cases
    · rwa [h]
    · intro u
      rw [State.selectCharter_table hst hl]
      exact TableRecord.lawful_of_vacant (TableRecord.fresh_vacant _)
  | loadTable d =>
    obtain h | ⟨t, hst, hl, h⟩ := s.loadTable_cases d
    · rwa [h]
    obtain ⟨hother, hstaged, hretiring, -⟩ := s.loadOne_table t d
    obtain ⟨h1, h2, -⟩ := State.loadInOrder_turn ho hst hl t
    rw [h, State.loadNext_frame]
    intro u
    show ((s.loadOne t d).table u).lawful
    by_cases hu : u = t
    · subst hu
      exact TableRecord.lawful_of_current_only (hstaged.trans h1) (hretiring.trans h2)
    · rw [hother u hu]; exact hs u
  | _ => exact hs

/-! ### Pages -/

/-- The pages of every version of every table. -/
def State.tablePages (s : State) : List Nat := allTables.flatMap (fun t => (s.table t).pages)

/-- The pages of the versions of the other tables. -/
def State.pagesBeside (s : State) (t : TableId) : List Nat :=
  (allTables.erase t).flatMap (fun u => (s.table u).pages)

theorem State.tablePages_perm (s : State) (t : TableId) :
    s.tablePages.Perm ((s.table t).pages ++ s.pagesBeside t) :=
  (List.perm_cons_erase (List.mem_finRange t)).flatMap_right _

theorem State.pagesBeside_congr {s s' : State} {t : TableId}
    (h : ∀ u, u ≠ t → s'.table u = s.table u) : s'.pagesBeside t = s.pagesBeside t := by
  refine List.flatMap_congr fun u hu => ?_
  rw [h u]
  rintro rfl
  exact (List.nodup_finRange 32).not_mem_erase hu

theorem State.tablePages_of_vacant {s : State} (h : ∀ u, (s.table u).vacant) :
    s.tablePages = [] := by
  refine List.flatMap_eq_nil_iff.mpr fun u _ => ?_
  obtain ⟨hc, hs, hr⟩ := h u
  simp [TableRecord.pages, hc, hs, hr]

theorem State.pagesAccounted_iff (s : State) : s.pagesAccounted ↔
    (s.freePool ++ s.quarantine ++ s.tablePages).Perm (List.range Config.pageCount) := Iff.rfl

/-- Pages move between the pool, the quarantine list and one table, and none is lost. -/
theorem State.pagesAccounted_move {s s' : State} {t : TableId}
    (ho : ∀ u, u ≠ t → s'.table u = s.table u)
    (hp : (s'.freePool ++ s'.quarantine ++ (s'.table t).pages).Perm
      (s.freePool ++ s.quarantine ++ (s.table t).pages))
    (hs : s.pagesAccounted) : s'.pagesAccounted := by
  rw [State.pagesAccounted_iff] at hs ⊢
  refine List.Perm.trans ?_ hs
  have h1 := s.tablePages_perm t
  have h2 := s'.tablePages_perm t
  rw [State.pagesBeside_congr ho] at h2
  simp only [List.perm_iff_count, List.count_append] at hp h1 h2 ⊢
  intro a
  have := hp a; have := h1 a; have := h2 a
  omega

/-- Under the law of pages no page of the pool is a table's. -/
theorem State.pagesAccounted_nodup {s : State} (t : TableId) (hs : s.pagesAccounted) :
    (s.freePool ++ (s.table t).pages).Nodup := by
  rw [State.pagesAccounted_iff] at hs
  have hall := hs.nodup_iff.mpr List.nodup_range
  have hperm : (s.freePool ++ s.quarantine ++ s.tablePages).Perm
      ((s.freePool ++ (s.table t).pages) ++ (s.quarantine ++ s.pagesBeside t)) := by
    have h1 := s.tablePages_perm t
    simp only [List.perm_iff_count, List.count_append] at h1 ⊢
    intro a
    have := h1 a
    omega
  exact (List.nodup_append.mp (hperm.nodup_iff.mp hall)).1

theorem State.pagesAccounted_release {s : State} {t : TableId} {r : TableRecord}
    {pages faulty : List Nat} (hp : (s.table t).pages.Perm (pages ++ r.pages))
    (hs : s.pagesAccounted) : ((s.releasePages pages faulty).setTable t r).pagesAccounted := by
  have hn : (s.freePool ++ pages).Nodup := by
    have := ((hp.append_left s.freePool).nodup_iff.mp (State.pagesAccounted_nodup t hs))
    rw [← List.append_assoc] at this
    exact (List.nodup_append.mp this).1
  have hmove := s.releasePages_perm pages faulty hn
  refine State.pagesAccounted_move (t := t) (fun u hu => ?_) ?_ hs
  · rw [State.table_setTable_other _ _ _ hu, State.releasePages_table]
  · rw [State.table_setTable_self]
    simp only [State.setTable_freePool, State.setTable_quarantine]
    simp only [List.perm_iff_count, List.count_append] at hp hmove ⊢
    intro a
    have := hp a; have := hmove a
    omega

theorem State.pagesAccounted_take {s : State} {t : TableId} {r : TableRecord} {n : Nat}
    (hp : r.pages.Perm (s.freePool.take n ++ (s.table t).pages)) (hs : s.pagesAccounted) :
    (({ s with freePool := s.freePool.drop n } : State).setTable t r).pagesAccounted := by
  refine State.pagesAccounted_move (s := s) (t := t)
    (fun u hu => State.table_setTable_other _ t r hu) ?_ hs
  rw [State.table_setTable_self]
  simp only [State.setTable_freePool, State.setTable_quarantine]
  have hcut : (s.freePool.take n ++ s.freePool.drop n).Perm s.freePool := by
    rw [List.take_append_drop]
  simp only [List.perm_iff_count, List.count_append] at hp hcut ⊢
  intro a
  have := hp a; have := hcut a
  omega

/-- The law of pages reads the pool, the quarantine list and the tables. -/
theorem State.pagesAccounted_congr {s t : State} (hf : t.freePool = s.freePool)
    (hq : t.quarantine = s.quarantine) (ht : t.tables = s.tables) (hs : s.pagesAccounted) :
    t.pagesAccounted := by
  have hx : t.table = s.table := by funext u; simp only [State.table, ht]
  unfold State.pagesAccounted
  rw [hf, hq, hx]
  exact hs

theorem State.pagesAccounted_loadTable {s : State} (d : List (Nat × Word)) (ho : s.loadInOrder)
    (hs : s.pagesAccounted) : (s.loadTable d).pagesAccounted := by
  obtain h | ⟨t, hst, hl, h⟩ := s.loadTable_cases d
  · rwa [h]
  obtain ⟨hsg, hret, hcur⟩ := State.loadInOrder_turn ho hst hl t
  have hnone : (s.table t).pages = [] := by simp [TableRecord.pages, hsg, hret, hcur le_rfl]
  suffices (s.loadOne t d).pagesAccounted by
    rw [h, State.loadNext_frame]
    exact State.pagesAccounted_congr (s := s.loadOne t d) rfl rfl rfl this
  obtain ⟨result, h⟩ | ⟨image, words, hn, h⟩ := s.loadOne_cases t d <;> rw [h]
  · refine State.pagesAccounted_move (t := t)
      (fun u hu => State.table_setTable_other s t _ hu) ?_ hs
    unfold State.loadFailed
    rw [State.table_setTable_self]
    rfl
  · obtain h | h := State.copyImage_cases _ t image _ words <;> rw [h, State.writeWords_frame]
    · exact State.pagesAccounted_congr
        (s := ({ s with freePool := s.freePool.drop (pagesFor image.length) } : State).setTable t
          { s.table t with
            current := some (image.loadedVersion (s.freePool.take (pagesFor image.length)))
            nextVersion := nextNumber image.version, loadResult := .loaded }) rfl rfl rfl
        (State.pagesAccounted_take (by simp [TableRecord.pages, hsg, hret, hcur le_rfl,
          TableHeader.loadedVersion]) hs)
    · refine State.pagesAccounted_congr
        (s := (({ s with freePool := s.freePool.drop (pagesFor image.length) } : State).releasePages
          (s.freePool.take (pagesFor image.length)) []).setTable t
          { s.table t with loadResult := .badImage }) rfl rfl rfl ?_
      refine State.pagesAccounted_move (t := t)
        (fun u hu => ?_) ?_ hs
      · rw [State.table_setTable_other _ _ _ hu]; rfl
      · have hnodup := (List.nodup_append.mp (State.pagesAccounted_nodup t hs)).1
        have hpool := State.releasePages_perm
          ({ s with freePool := s.freePool.drop (pagesFor image.length) } : State)
          (s.freePool.take (pagesFor image.length)) []
          (List.perm_append_comm.nodup_iff.mp (by rwa [List.take_append_drop]))
        rw [State.table_setTable_self]
        simp only [State.setTable_freePool, State.setTable_quarantine]
        have hcut : (s.freePool.take (pagesFor image.length)
          ++ s.freePool.drop (pagesFor image.length)).Perm s.freePool := by
          rw [List.take_append_drop]
        have hr : TableRecord.pages { s.table t with loadResult := LoadResult.badImage }
          = (s.table t).pages := rfl
        rw [hr]
        simp only [List.perm_iff_count, List.count_append] at hpool hcut ⊢
        intro a
        have := hpool a; have := hcut a
        omega

theorem State.Act.pagesAccounted {s t : State} (h : State.Act s t) (ho : s.loadInOrder)
    (hs : s.pagesAccounted) : t.pagesAccounted := by
  cases h with
  | record t r hp _ =>
    refine State.pagesAccounted_move (t := t)
      (fun u hu => State.table_setTable_other s t r hu) ?_ hs
    rw [State.table_setTable_self]
    exact hp.append_left _
  | release t r pages faulty hp _ => exact State.pagesAccounted_release hp hs
  | take t r n hn hp _ _ => exact State.pagesAccounted_take hp hs
  | leaveMaintenance => rw [State.leaveMaintenance_frame]; exact hs
  | reset k =>
    have hvac (u : TableId) : ((s.partReset k).table u).vacant := by
      rw [State.partReset_table]; exact TableRecord.atReset_vacant _ k
    rw [State.pagesAccounted_iff, State.tablePages_of_vacant hvac]
    simp [State.partReset]
  | releaseReset v =>
    obtain h | ⟨hst, h⟩ := s.releaseReset_cases v <;> rw [h] <;> exact hs
  | selectCharter =>
    obtain h | ⟨⟨hst, hl⟩, h⟩ := s.selectCharter_cases
    · rwa [h]
    · have hbefore : ∀ u, (s.table u).vacant := by have := ho.2 hst; rwa [hl] at this
      have hafter (u : TableId) : (s.selectCharter.table u).vacant := by
        rw [State.selectCharter_table hst hl]; exact TableRecord.fresh_vacant _
      rw [State.pagesAccounted_iff] at hs ⊢
      rw [State.tablePages_of_vacant hbefore] at hs
      rw [State.tablePages_of_vacant hafter, h]
      exact hs
  | loadTable d => exact State.pagesAccounted_loadTable d ho hs
  | _ => exact hs

theorem foldl_insertSorted_ascending (xs : List Nat) :
    ∀ pool : List Nat, pool.Pairwise (· < ·) →
      (xs.foldl (fun l x => insertSorted x l) pool).Pairwise (· < ·) := by
  induction xs with
  | nil => exact fun _ h => h
  | cons x xs ih => exact fun pool h => ih _ (insertSorted_pairwise x pool h)

theorem State.poolAscending_releasePages {s : State} (pages faulty : List Nat)
    (hs : s.poolAscending) : (s.releasePages pages faulty).poolAscending :=
  foldl_insertSorted_ascending _ _ hs

theorem State.Act.poolAscending {s t : State} (h : State.Act s t) (hs : s.poolAscending) :
    t.poolAscending := by
  cases h with
  | release t r pages faulty _ _ => exact State.poolAscending_releasePages pages faulty hs
  | take t r n _ _ _ _ => exact hs.drop
  | leaveMaintenance => rw [State.leaveMaintenance_frame]; exact hs
  | reset k => exact List.pairwise_lt_range
  | releaseReset v =>
    obtain h | ⟨hst, h⟩ := s.releaseReset_cases v <;> rw [h] <;> exact hs
  | selectCharter =>
    unfold State.poolAscending at hs ⊢
    obtain h | ⟨-, h⟩ := s.selectCharter_cases <;> rw [h] <;> exact hs
  | loadTable d =>
    obtain h | ⟨t, -, -, h⟩ := s.loadTable_cases d
    · rwa [h]
    rw [h, State.loadNext_frame]
    obtain ⟨result, h⟩ | ⟨image, words, -, h⟩ := s.loadOne_cases t d <;> rw [h]
    · exact hs
    · have hdrop : (s.freePool.drop (pagesFor image.length)).Pairwise (· < ·) := hs.drop
      obtain h | h := State.copyImage_cases _ t image _ words <;> rw [h, State.writeWords_frame]
      · exact hdrop
      · exact foldl_insertSorted_ascending _ _ hdrop
  | _ => exact hs

/-- The queue of commands is outside every act. -/
theorem State.Act.pending_eq {s t : State} (h : State.Act s t) : t.pending = s.pending := by
  cases h with
  | leaveMaintenance => rw [State.leaveMaintenance_frame]
  | reset k => exact State.partReset_pending _ _
  | releaseReset v =>
    obtain h | ⟨hst, h⟩ := s.releaseReset_cases v <;> rw [h]
  | selectCharter => obtain h | ⟨-, h⟩ := s.selectCharter_cases <;> rw [h]
  | loadTable d => exact (s.loadTable_outside d).2.2.2.2
  | _ => rfl

end Sys2Proof.Machine

namespace Sys2Proof.Machine

/-! ## The operations of the model as chains of acts -/

theorem State.Act.acts {s t : State} (h : State.Act s t) : State.Acts s t := .single h

theorem State.acts_refl (s : State) : State.Acts s s := .refl

/-- The last operation of a chain, named first. -/
theorem State.Acts.after {s t u : State} (h : State.Acts t u) (h0 : State.Acts s t) :
    State.Acts s u := h0.trans h

/-- A change that no law reads, recognised by its frame. -/
theorem State.acts_quiet {s t : State} (h : t = s.withQuietOf t) : State.Acts s t := by
  rw [h]; exact (State.Act.quiet t).acts

theorem State.acts_setEngine (s : State) (p : Port) (x : PortEngine) :
    State.Acts s (s.setEngine p x) := State.acts_quiet rfl

theorem State.acts_setTurn (s : State) (p : Port) (x : Turn) : State.Acts s (s.setTurn p x) :=
  State.acts_setEngine _ _ _

theorem State.acts_setCursor (s : State) (p : Port) (c : SlotId) (x : Context) :
    State.Acts s (s.setCursor p c x) := State.acts_quiet rfl

theorem State.acts_setEnds (s : State) (p : Port) (x : List EndBlock) :
    State.Acts s (s.setEnds p x) := State.acts_quiet rfl

theorem State.acts_respond (s : State) (p : Port) (tag : Byte) (r : Reply) :
    State.Acts s (s.respond p tag r) := State.acts_setEngine _ _ _

theorem State.acts_setPair (s : State) (t : TableId) (x : TablePair) :
    State.Acts s (s.setPair t x) := State.acts_quiet rfl

/-! ### Events -/

theorem State.acts_enterEvent (s : State) (p : Port) (named : Option Nat) (e : Event) :
    State.Acts s (s.enterEvent p named e) := by
  unfold State.enterEvent
  split
  · exact (State.Act.queue p _ (EventQueue.bounded_enter e)).acts
  · exact s.acts_refl

theorem State.acts_enterEvents (s : State) (ports : List Port) (e : Event) :
    State.Acts s (s.enterEvents ports e) := by
  induction ports generalizing s with
  | nil => exact s.acts_refl
  | cons p ps ih => exact (s.acts_enterEvent p none e).trans (ih _)

theorem State.acts_tellWriter (s : State) (t : TableId) (n : Nat) (e : Event) :
    State.Acts s (s.tellWriter t n e) := by
  unfold State.tellWriter
  split
  · exact s.acts_enterEvent _ _ _
  · exact s.acts_refl

/-! ### Records of the directory -/

theorem TableRecord.sameVersions_current {r : TableRecord} {v w : Version}
    (hv : r.current = some v) (h : w.identity = v.identity) :
    r.SameVersions { r with current := some w } := ⟨by simp [hv, h], rfl, rfl⟩

theorem TableRecord.sameVersions_retiring {r : TableRecord} {v w : Version}
    (hv : r.retiring = some v) (h : w.identity = v.identity) :
    r.SameVersions { r with retiring := some w } := ⟨rfl, rfl, by simp [hv, h]⟩

theorem TableRecord.sameVersions_staged {r : TableRecord} {st st' : Staged}
    (hs : r.staged = some st) (h : st'.version.identity = st.version.identity) :
    r.SameVersions { r with staged := some st' } := ⟨rfl, by simp [hs, h], rfl⟩

theorem State.acts_setTable {s : State} {t : TableId} {r : TableRecord}
    (h : (s.table t).SameVersions r) : State.Acts s (s.setTable t r) :=
  (State.Act.record t r (by rw [h.pages]) h.follows).acts

theorem State.acts_pinCurrent {s s1 : State} {t : TableId} {v : Version}
    (h : s.pinCurrent t = some (v, s1)) : State.Acts s s1 := by
  unfold State.pinCurrent at h
  split at h
  next v hv =>
    cases h
    exact State.acts_setTable (TableRecord.sameVersions_current hv rfl)
  next => cases h

theorem State.acts_pinNamed (s : State) (t : TableId) (n : Nat) :
    State.Acts s (s.pinNamed t n) := by
  unfold State.pinNamed
  split
  next v hv =>
    split
    · exact State.acts_setTable (TableRecord.sameVersions_current hv rfl)
    · split
      next w hr =>
        split
        · exact State.acts_setTable (TableRecord.sameVersions_retiring hr rfl)
        · exact s.acts_refl
      · exact s.acts_refl
  next w hv hw =>
    split
    · exact State.acts_setTable (TableRecord.sameVersions_retiring hw rfl)
    · exact s.acts_refl
  · exact s.acts_refl

theorem TableRecord.follows_retire (r : TableRecord) :
    r.Follows { r with retiring := none } where
  lawful h := by
    obtain ⟨-, -, h3, -⟩ := h
    exact ⟨by simp, by simp, h3, by simp⟩
  vacant h := ⟨h, fun _ => rfl, fun h => h⟩

theorem TableRecord.follows_unstage (r : TableRecord) : r.Follows { r with staged := none } where
  lawful h := by
    obtain ⟨h1, h2, -, -⟩ := h
    exact ⟨h1, h2, by simp, by simp⟩
  vacant _ := ⟨rfl, fun h => h, fun h => h⟩

/-- A retirement gives the pages back, tells the writer, and hands on a notice (R27). -/
theorem State.acts_retire (s : State) (t : TableId) : State.Acts s (s.retire t) := by
  cases hr : (s.table t).retiring with
  | none => unfold State.retire; rw [hr]
  | some v =>
    rw [State.retire_some hr]
    have hpages : (s.table t).pages.Perm
        (v.pages ++ TableRecord.pages { s.table t with retiring := none }) := by
      simp only [TableRecord.pages, hr, List.perm_iff_count, List.count_append]
      intro a
      simp only [List.count_nil]
      omega
    have hfree := (State.Act.release t { s.table t with retiring := none } v.pages v.faulty hpages
      (TableRecord.follows_retire _)).acts
    dsimp only
    split
    · refine (hfree.trans ?_).trans (State.acts_quiet rfl)
      split
      · exact State.acts_enterEvent _ _ _ _
      · exact State.acts_refl _
    · refine hfree.trans ?_
      split
      · exact State.acts_enterEvent _ _ _ _
      · exact State.acts_refl _

theorem State.acts_unpin (s : State) (t : TableId) (n : Nat) : State.Acts s (s.unpin t n) := by
  by_cases hc : ∃ v, (s.table t).current = some v ∧ v.number = n
  · obtain ⟨v, hv, hn⟩ := hc
    rw [State.unpin_current hv hn]
    exact State.acts_setTable (TableRecord.sameVersions_current hv rfl)
  have hc' : ∀ v, (s.table t).current = some v → v.number ≠ n := fun v hv hn => hc ⟨v, hv, hn⟩
  by_cases hr : ∃ w, (s.table t).retiring = some w ∧ w.number = n
  · obtain ⟨w, hw, hn⟩ := hr
    rw [State.unpin_retiring hc' hw hn]
    have hlow := State.acts_setTable (s := s) (t := t)
      (TableRecord.sameVersions_retiring (w := w.unpin) hw rfl)
    split
    · exact hlow.trans (State.acts_retire _ t)
    · exact hlow
  · rw [State.unpin_absent hc' fun w hw hn => hr ⟨w, hw, hn⟩]

theorem State.acts_unpinOld (s : State) (x : Context) : State.Acts s (s.unpinOld x) := by
  cases x with
  | none => exact s.acts_refl
  | some b => exact s.acts_unpin _ _

theorem State.acts_rebind {s s1 : State} {t : TableId} {n : Nat} {v : Version}
    (h : s.rebind t n = some (v, s1)) : State.Acts s s1 := by
  unfold State.rebind at h
  split at h
  next v hv =>
    split at h <;> cases h
    · exact s.acts_refl
    · exact (State.acts_unpin _ _ _).after
        (State.acts_setTable (TableRecord.sameVersions_current hv rfl))
  next => cases h

theorem State.acts_damageTold (s : State) (r : TableRecord) (t : TableId) (v : Version) (n : Nat) :
    State.Acts s (s.damageTold r t v n) := by
  unfold State.damageTold
  split
  · exact State.acts_enterEvents _ _ _
  · exact s.acts_refl

theorem State.acts_parityReport (s : State) (t : TableId) (n page : Nat) :
    State.Acts s (s.parityReport t n page) := by
  by_cases hc : ∃ v, (s.table t).current = some v ∧ v.number = n
  · obtain ⟨v, hv, hn⟩ := hc
    rw [State.parityReport_current page hv hn]
    exact (State.acts_damageTold _ _ _ _ _).after
      (State.acts_setTable (TableRecord.sameVersions_current hv rfl))
  have hc' : ∀ v, (s.table t).current = some v → v.number ≠ n := fun v hv hn => hc ⟨v, hv, hn⟩
  by_cases hr : ∃ w, (s.table t).retiring = some w ∧ w.number = n
  · obtain ⟨w, hw, hn⟩ := hr
    rw [State.parityReport_retiring page hc' hw hn]
    exact (State.acts_damageTold _ _ _ _ _).after
      (State.acts_setTable (TableRecord.sameVersions_retiring hw rfl))
  have hr' : ∀ w, (s.table t).retiring = some w → w.number ≠ n := fun w hw hn => hr ⟨w, hw, hn⟩
  by_cases hst : ∃ st, (s.table t).staged = some st ∧ st.version.number = n
  · obtain ⟨st, hst, hn⟩ := hst
    rw [State.parityReport_staged page hc' hr' hst hn]
    exact (State.acts_damageTold _ _ _ _ _).after
      (State.acts_setTable (TableRecord.sameVersions_staged hst rfl))
  · rw [State.parityReport_absent page hc' hr' fun st h hn => hst ⟨st, h, hn⟩]

theorem State.acts_checkReport (s : State) (t : TableId) (n : Nat) :
    State.Acts s (s.checkReport t n) := by
  unfold State.checkReport
  split
  next v hv =>
    split
    · exact (State.acts_enterEvents _ _ _).after
        (State.acts_setTable (TableRecord.sameVersions_current hv rfl))
    · exact s.acts_refl
  · exact s.acts_refl

theorem State.acts_releaseStaged (s : State) (t : TableId) :
    State.Acts s (s.releaseStaged t) := by
  unfold State.releaseStaged
  split
  next st hst =>
    refine (State.Act.release t _ _ _ ?_ (TableRecord.follows_unstage _)).acts
    simp only [TableRecord.pages, hst, List.perm_iff_count, List.count_append, List.count_nil]
    intro a
    omega
  · exact s.acts_refl

/-- With the CURRENT version gone or RETIRING, the STAGED version becomes CURRENT (R23). -/
theorem TableRecord.follows_promote {r : TableRecord} {st : Staged} (hs : r.staged = some st) :
    r.Follows { r with current := some st.version, staged := none, retiring := r.current } where
  lawful h := by
    obtain ⟨-, -, h3, -⟩ := h
    refine ⟨by simp, fun v w hv hw => ?_, by simp, by simp⟩
    cases hv
    exact h3 st w hs hw
  vacant h := by rw [hs] at h; cases h

theorem State.acts_promote {s : State} {t : TableId} {st : Staged}
    (hs : (s.table t).staged = some st) (hr : (s.table t).retiring = none) :
    State.Acts s (s.setTable t { s.table t with
      current := some st.version, staged := none, retiring := (s.table t).current }) := by
  refine (State.Act.record t _ ?_ (TableRecord.follows_promote hs)).acts
  simp only [TableRecord.pages, hs, hr, List.perm_iff_count, List.count_append, List.count_nil]
  intro a
  omega

/-- An unpinned CURRENT version is released where nothing is RETIRING (R24). -/
theorem State.acts_releaseCurrent {s : State} {t : TableId} {v : Version}
    (hv : (s.table t).current = some v) (hr : (s.table t).retiring = none) :
    State.Acts s ((s.releasePages v.pages v.faulty).setTable t { s.table t with current := none }) := by
  refine (State.Act.release t _ _ _ ?_ ?_).acts
  · simp only [TableRecord.pages, hv, List.perm_iff_count, List.count_append, List.count_nil]
    intro a
    omega
  · refine ⟨fun _ => ?_, fun h => ⟨h, fun h => h, fun _ => rfl⟩⟩
    simp [TableRecord.lawful, hr]

theorem State.acts_swap (s : State) (t : TableId) : State.Acts s (s.swap t) := by
  unfold State.swap
  split
  next st hs hr =>
    refine (State.acts_enterEvents _ _ _).after ?_
    have hgo := State.acts_promote hs hr
    split
    next v hv =>
      split
      · have hfreed : State.Acts s ((s.releasePages v.pages v.faulty).setTable t
          { s.table t with current := none }) := State.acts_releaseCurrent hv hr
        have hpromoted := State.acts_promote
          (s := (s.releasePages v.pages v.faulty).setTable t { s.table t with current := none })
          (t := t) (st := st) (by rw [State.table_setTable_self]; exact hs)
          (by rw [State.table_setTable_self]; exact hr)
        rw [State.table_setTable_self, State.setTable_setTable] at hpromoted
        simpa only [hr] using hfreed.trans hpromoted
      · rw [hv] at hgo; exact hgo
    next hv => rw [hv, ← hr] at hgo; exact hgo
  · exact s.acts_refl
  · exact s.acts_refl

/-! ### Requests -/

theorem State.acts_restartLease (s : State) (p : Port) : State.Acts s (s.restartLease p) := by
  unfold State.restartLease
  split
  next ho => exact State.Act.acts (.session p { s.session p with leaseTimer := _ }
    (fun _ => by simp [ho]) rfl fun h => h)
  · exact s.acts_refl

/-- The gate lets no request but STATUS through in LOADING, and none through in RESET (R132). -/
theorem State.acts_serve {s : State} {p : Port} {req : Request} {owner : Owner}
    (h : ∀ s1 : State, s1.part.state ≠ .reset → (req ≠ .status → s1.part.state ≠ .loading) →
      State.Acts s1 (owner s1).1) : State.Acts s (s.serve p req owner) := by
  unfold State.serve
  split
  next tag htag =>
    have hreset : s.part.state ≠ .reset := by
      intro hst
      simp [State.requestTag, hst] at htag
    split
    · exact s.acts_respond _ _ _
    next hgate =>
      have hload : req ≠ .status → s.part.state ≠ .loading := by
        intro hne hst
        cases req <;> simp_all [State.gate]
      have hpart : (s.restartLease p).part = s.part := by
        unfold State.restartLease; split <;> rfl
      have howner := h (s.restartLease p) (by rwa [hpart]) (by rwa [hpart])
      unfold State.passGate
      dsimp only
      split
      · exact (State.acts_respond _ _ _ _).after (howner.after (s.acts_restartLease p))
      · exact howner.after (s.acts_restartLease p)
  · exact s.acts_refl

/-- Outside MAINTENANCE the owner works; inside it refuses. -/
theorem State.acts_outsideMaintenance {s : State} {work : State × Option Reply}
    (h : s.part.state ≠ .maintenance → State.Acts s work.1) :
    State.Acts s (outsideMaintenance s work).1 := by
  unfold outsideMaintenance
  split
  · exact s.acts_refl
  next hm => exact h hm

theorem State.acts_withBound {s : State} {p : Port} {c : SlotId}
    {work : Binding → State × Option Reply} (h : ∀ b, State.Acts s (work b).1) :
    State.Acts s (withBound s p c work).1 := by
  unfold withBound
  split
  · exact h _
  · exact s.acts_refl

/-! ### Sessions and events -/

theorem State.acts_endSession (s : State) (p : Port) (cause : Departure) :
    State.Acts s (s.endSession p cause) := by
  unfold State.endSession
  split
  · exact (State.acts_setEnds _ _ _).after (State.Act.acts (.session p
      { s.session p with isOpen := false, leaseTimer := none, departure := cause }
      (fun _ => rfl) rfl fun h => nomatch h))
  · exact s.acts_refl

theorem State.acts_takeEnd (s : State) (p : Port) (b : EndBlock) :
    State.Acts s (s.takeEnd p b) := s.acts_setEnds _ _

theorem State.acts_endEvents (s : State) (p : Port) : State.Acts s (s.endEvents p) := by
  unfold State.endEvents
  split
  · exact (State.Act.queue p _ fun _ => EventQueue.bounded_fresh).acts.after (s.acts_takeEnd _ _)
  · exact s.acts_refl

theorem State.acts_maskOwner (s : State) (p : Port) (m : Byte) :
    State.Acts s (maskOwner p m s).1 :=
  State.Act.acts (.session p { s.session p with mask := m } (fun h => h) rfl fun h => h)

theorem EventQueue.bounded_drop {q : EventQueue} (n : Nat) (h : q.bounded) :
    ({ entries := q.entries.drop n, overrun := false } : EventQueue).bounded := by
  refine ⟨?_, by simp⟩
  simp only [List.length_drop]
  exact (Nat.sub_le _ _).trans h.1

theorem State.acts_eventsOwner (s : State) (p : Port) (n : Byte) :
    State.Acts s (eventsOwner p n s).1 := by
  unfold eventsOwner
  split
  · exact (State.Act.queue p _ (EventQueue.bounded_drop _)).acts
  · exact s.acts_refl

/-! ### Cursors -/

theorem State.acts_fixVersion {s s1 : State} {p : Port} {c : SlotId} {b b1 : Binding} {v : Version}
    {isCurrent moved : Bool} (h : s.fixVersion p c b = some (s1, b1, v, isCurrent, moved)) :
    State.Acts s s1 := by
  unfold State.fixVersion at h
  split at h
  · split at h
    next v s2 hre => cases h; exact (State.acts_setCursor _ _ _ _).after (State.acts_rebind hre)
    next => cases h
  · split at h
    next => cases h; exact s.acts_refl
    next => cases h

theorem State.acts_stepSlot (s : State) (p : Port) (job : ReadJob) :
    State.Acts s (s.stepSlot p job) := by
  unfold State.stepSlot
  split
  · split
    · exact s.acts_setCursor _ _ _
    · exact s.acts_refl
  · exact s.acts_refl

theorem State.acts_grant (s : State) (r : Requestor) : State.Acts s (s.grant r) :=
  State.acts_quiet rfl

theorem State.acts_readWords (p : Port) (n : Nat) (s : State) (job : ReadJob) :
    State.Acts s (State.readWords p n s job).1 := by
  induction n generalizing s job with
  | zero => exact s.acts_refl
  | succ n ih =>
    unfold State.readWords
    split
    · exact s.acts_refl
    · split
      · dsimp only
        split
        · exact (ih _ _).after ((State.acts_stepSlot _ _ _).after (s.acts_grant _))
        · exact (State.acts_parityReport _ _ _ _).after (s.acts_grant _)
      · exact s.acts_refl

theorem State.acts_readOn (p : Port) (words : Nat) (job : ReadJob) (s : State) :
    State.Acts s (readOn p words job s).1 := by
  have hread := State.acts_readWords p (min words job.left) s job
  unfold readOn
  dsimp only
  split
  · exact hread
  · exact hread
  · exact (State.acts_setTurn _ _ _).after hread

theorem State.acts_inTurns (p : Port) (words : Nat) (start : Owner) (s : State)
    (h : State.Acts s (start s).1) : State.Acts s (inTurns p words start s).1 := by
  unfold inTurns
  split
  · exact s.acts_readOn _ _ _
  all_goals exact h

theorem State.acts_bindOwner (s : State) (p : Port) (slot table : Byte) (offset : Word)
    (mode stride follow : Byte) :
    State.Acts s (bindOwner p slot table offset mode stride follow s).1 := by
  refine State.acts_outsideMaintenance fun _ => ?_
  split
  · unfold bindTable
    split
    · exact s.acts_refl
    split
    · exact s.acts_refl
    split
    · exact s.acts_refl
    next v s1 hpin =>
      dsimp only
      split
      · exact s.acts_setTurn _ _
      · exact (State.acts_setTurn _ _ _).after (State.acts_pinCurrent hpin)
  · exact s.acts_refl

theorem State.acts_bindTurn (s : State) (p : Port) (slot table : Byte) (offset : Word)
    (mode stride follow : Byte) :
    State.Acts s (s.bindTurn p (.bind slot table offset mode stride follow)
      (bindOwner p slot table offset mode stride follow)) := by
  unfold State.bindTurn
  split
  next c new length damaged _ _ =>
    refine (State.acts_respond _ _ _ _).after ?_
    unfold State.bindPinned
    split
    · exact s.acts_unpin _ _
    split
    · exact (State.acts_unpinOld _ _).after (s.acts_setCursor _ _ _)
    · exact s.acts_unpin _ _
  all_goals exact State.acts_serve fun s1 _ _ => s1.acts_bindOwner _ _ _ _ _ _ _

theorem State.acts_unbindOwner (s : State) (p : Port) (slot : Byte) :
    State.Acts s (unbindOwner p slot s).1 := by
  refine State.acts_outsideMaintenance fun _ => ?_
  split
  · exact State.acts_withBound fun b => (State.acts_unpin _ _ _).after (s.acts_setCursor _ _ _)
  · exact s.acts_refl

theorem State.acts_seekOwner (s : State) (p : Port) (slot : Byte) (offset : Word) :
    State.Acts s (seekOwner p slot offset s).1 := by
  refine State.acts_outsideMaintenance fun _ => ?_
  split
  · refine State.acts_withBound fun b => ?_
    split
    · split
      · exact s.acts_setCursor _ _ _
      · exact s.acts_refl
    · exact s.acts_refl
  · exact s.acts_refl

theorem State.acts_resyncOwner (s : State) (p : Port) (slot : Byte) :
    State.Acts s (resyncOwner p slot s).1 := by
  refine State.acts_outsideMaintenance fun _ => ?_
  split
  · refine State.acts_withBound fun b => ?_
    split
    next hre => exact (State.acts_setCursor _ _ _ _).after (State.acts_rebind hre)
    · exact s.acts_refl
  · exact s.acts_refl

/-- CURSOR_INFO only answers. -/
theorem cursorInfoOwner_state (p : Port) (slot : Byte) (s : State) :
    (cursorInfoOwner p slot s).1 = s := by
  unfold cursorInfoOwner outsideMaintenance
  split
  · rfl
  split
  · split
    · split <;> rfl
    · rfl
  · rfl

theorem State.acts_fetchOwner (s : State) (p : Port) (slot count : Byte) (words : Nat) :
    State.Acts s (fetchOwner p slot count words s).1 := by
  refine State.acts_inTurns _ _ _ _ (State.acts_outsideMaintenance fun _ => ?_)
  split
  · refine State.acts_withBound fun b => ?_
    split
    next hfix => exact (State.acts_readOn _ _ _ _).after (State.acts_fixVersion hfix)
    · exact s.acts_refl
  · exact s.acts_refl

theorem State.acts_peekOwner (s : State) (p : Port) (slot : Byte) (offset : Word) (count : Byte)
    (words : Nat) : State.Acts s (peekOwner p slot offset count words s).1 := by
  refine State.acts_inTurns _ _ _ _ (State.acts_outsideMaintenance fun _ => ?_)
  split
  · refine State.acts_withBound fun b => ?_
    split
    next hfix =>
      split
      · exact State.acts_fixVersion hfix
      · exact (State.acts_readOn _ _ _ _).after (State.acts_fixVersion hfix)
    · exact s.acts_refl
  · exact s.acts_refl

theorem State.acts_unbindSlot (s : State) (p : Port) (c : SlotId) :
    State.Acts s (s.unbindSlot p c) := by
  unfold State.unbindSlot
  split
  · exact (State.acts_unpin _ _ _).after (s.acts_setCursor _ _ _)
  · exact s.acts_refl

/-- A chain of steps of one kind is a chain of acts. -/
theorem State.acts_foldl {α : Type} (f : State → α → State) (h : ∀ s x, State.Acts s (f s x))
    (l : List α) (s : State) : State.Acts s (l.foldl f s) := by
  induction l generalizing s with
  | nil => exact s.acts_refl
  | cons x xs ih => exact (ih _).after (h s x)

theorem State.acts_endCursors (s : State) (p : Port) (order : List SlotId) :
    State.Acts s (s.endCursors p order) := by
  unfold State.endCursors
  split
  · exact (State.acts_foldl _ (fun s c => s.acts_unbindSlot p c) _ _).after (s.acts_takeEnd _ _)
  · exact s.acts_refl

/-! ### Save stacks -/

theorem State.acts_saveOwner (s : State) (p : Port) (slot : Byte) :
    State.Acts s (saveOwner p slot s).1 := by
  refine State.acts_outsideMaintenance fun _ => ?_
  split
  · split
    · exact s.acts_refl
    next hroom =>
      have hpin (x : Context) : State.Acts s (s.pinContext x) := by
        cases x with
        | none => exact s.acts_refl
        | some b => exact s.acts_pinNamed _ _
      refine (State.Act.stack p _ fun _ => ?_).acts.after (hpin _)
      simp only [List.length_cons]
      omega
  · exact s.acts_refl

/-- A stack that loses its top, or all, stays within its capacity. -/
theorem State.acts_setStack {s : State} {p : Port} {x : List Context}
    (h : x.length ≤ (s.stack p).length) : State.Acts s (s.setStack p x) :=
  (State.Act.stack p x fun h0 => h.trans h0).acts

theorem State.acts_restoreOwner (s : State) (p : Port) (slot : Byte) :
    State.Acts s (restoreOwner p slot s).1 := by
  refine State.acts_outsideMaintenance fun _ => ?_
  split
  · split
    · exact s.acts_refl
    next x rest hst =>
      have hpop : State.Acts s (s.setStack p rest) := State.acts_setStack (by simp [hst])
      have hgo := (State.acts_unpinOld _ (s.cursor p ‹SlotId›)).after
        ((State.acts_setCursor _ p ‹SlotId› x).after hpop)
      dsimp only
      split
      · exact hgo
      · exact s.acts_refl
  · exact s.acts_refl

theorem State.acts_discardOwner (s : State) (p : Port) : State.Acts s (discardOwner p s).1 := by
  refine State.acts_outsideMaintenance fun _ => ?_
  split
  · exact s.acts_refl
  next x rest hst =>
    exact (State.acts_unpinOld _ _).after (State.acts_setStack (by simp [hst]))

theorem State.acts_unpinEntry (s : State) (p : Port) (i : Nat) :
    State.Acts s (s.unpinEntry p i) := by
  unfold State.unpinEntry
  split
  · exact (State.acts_unpin _ _ _).after (State.acts_setStack (by simp))
  · exact s.acts_refl
  · exact s.acts_refl

theorem State.acts_endStack (s : State) (p : Port) (order : List Nat) :
    State.Acts s (s.endStack p order) := by
  unfold State.endStack
  split
  · exact (State.acts_setStack (by simp)).after
      ((State.acts_foldl _ (fun s i => s.acts_unpinEntry p i) _ _).after (s.acts_takeEnd _ _))
  · exact s.acts_refl

end Sys2Proof.Machine

namespace Sys2Proof.Machine

/-! ### Staging -/

theorem State.acts_writeGranted (s : State) (r : Requestor) (pages : List Nat) (offset : Nat)
    (w : Word) : State.Acts s (s.writeGranted r pages offset w) := by
  have hwf := s.wf_writeGranted r pages offset w
  rw [State.writeGranted_eq] at hwf ⊢
  exact (State.acts_quiet rfl).after (State.Act.memory _ hwf).acts

theorem State.acts_setSub (s : State) (t : TableId) (sub : SubState) :
    State.Acts s (s.setSub t sub) := by
  unfold State.setSub
  split
  next st hst => exact State.acts_setTable (TableRecord.sameVersions_staged hst rfl)
  · exact s.acts_refl

theorem State.acts_setStagedCheck (s : State) (t : TableId) (check : Option Word) :
    State.Acts s (s.setStagedCheck t check) := by
  unfold State.setStagedCheck
  split
  next st hst => exact State.acts_setTable (TableRecord.sameVersions_staged hst rfl)
  · exact s.acts_refl

/-- Of three numbers in a row neither CURRENT nor RETIRING has the one that is picked (R20). -/
theorem TableRecord.pickNumber_free (r : TableRecord) : r.numberHeld r.pickNumber = false := by
  have hdistinct : nextNumber r.nextVersion ≠ r.nextVersion
      ∧ nextNumber (nextNumber r.nextVersion) ≠ r.nextVersion
      ∧ nextNumber (nextNumber r.nextVersion) ≠ nextNumber r.nextVersion := by
    unfold nextNumber Config.maxVersion
    grind
  unfold TableRecord.pickNumber
  split
  next h0 =>
    split
    next h1 =>
      simp only [TableRecord.numberHeld, Bool.or_eq_true, decide_eq_true_eq, Bool.or_eq_false_iff,
        decide_eq_false_iff_not] at h0 h1 ⊢
      grind
    next h1 => simpa using h1
  next h0 => simpa using h0

/-- A STAGED version under the picked number keeps a record lawful. -/
theorem TableRecord.lawful_created {r : TableRecord} {st : Staged} (n : Nat)
    (hst : st.version.number = r.pickNumber) (h : r.lawful) :
    TableRecord.lawful { r with nextVersion := n, staged := some st } := by
  obtain ⟨h1, h2, -, -⟩ := h
  have hfree := r.pickNumber_free
  simp only [TableRecord.numberHeld, Bool.or_eq_false_iff, decide_eq_false_iff_not] at hfree
  obtain ⟨hc, hr⟩ := hfree
  refine ⟨h1, h2, fun x v hx hv => ?_, fun x w hx hw => ?_⟩ <;> cases hx <;> rw [hst]
  · intro e; exact hc (by rw [show r.current = some v from hv, e]; rfl)
  · intro e; exact hr (by rw [show r.retiring = some w from hw, e]; rfl)

/-- The creation of a STAGED version with the n lowest free pages, where there is none (R22). -/
theorem State.acts_createStaged {s : State} {t : TableId} {n length : Nat} {kind : FillKind}
    {session : Nat} (hn : n ≤ s.freePool.length) (hs : (s.table t).staged = none)
    (hr : s.part.state ≠ .reset) (hl : s.part.state ≠ .loading) :
    State.Acts s (({ s with freePool := s.freePool.drop n } : State).createStaged t length
      (s.freePool.take n) kind session) := by
  refine (State.Act.take t _ n hn ?_ (TableRecord.lawful_created _ rfl) (.inl ⟨hr, hl⟩)).acts
  simp only [TableRecord.pages, hs, List.perm_iff_count, List.count_append, List.count_nil]
  intro a
  omega

theorem State.acts_writerTable {s : State} {p : Port} {table : Byte} {operands : Bool}
    {work : TableId → State → State × Option Reply}
    (h : ∀ t, s.part.state ≠ .maintenance → State.Acts s (work t s).1) :
    State.Acts s (writerTable p table operands work s).1 := by
  refine State.acts_outsideMaintenance fun hm => ?_
  split
  · split
    · exact s.acts_refl
    split
    · exact s.acts_refl
    split
    · exact s.acts_refl
    · exact h _ hm
  · exact s.acts_refl

theorem State.acts_withOpenStaged {s : State} {t : TableId}
    {work : Staged → State → State × Option Reply} (h : ∀ st, State.Acts s (work st s).1) :
    State.Acts s (withOpenStaged t work s).1 := by
  unfold withOpenStaged
  split
  · split
    · exact h _
    all_goals exact s.acts_refl
  · exact s.acts_refl

theorem State.acts_stageSized {s : State} {t : TableId} (length : Nat) {take : Owner}
    (h : (s.table t).staged = none → State.Acts s (take s).1) :
    State.Acts s (stageSized t length take s).1 := by
  unfold stageSized
  split
  · exact s.acts_refl
  split
  · exact s.acts_refl
  next hs => exact h (by simpa using hs)

section
variable {s : State} {t : TableId} (p : Port) (length : Nat) (hr : s.part.state ≠ .reset)
  (hl : s.part.state ≠ .loading)
include hr hl

theorem State.acts_stageFilled (kind : FillKind) (source : Nat) (damaged : Bool)
    (hs : (s.table t).staged = none) :
    State.Acts s (stageFilled p t length kind source damaged s).1 := by
  unfold stageFilled
  split
  next pages s1 ha =>
    obtain ⟨hn, rfl, rfl⟩ := State.allocate_some ha
    exact (State.acts_quiet rfl).after (State.acts_createStaged hn hs hr hl)
  · exact s.acts_refl

theorem State.acts_stageCopy (hs : (s.table t).staged = none) :
    State.Acts s (stageCopy p t length s).1 := by
  unfold stageCopy
  split
  · exact State.acts_stageFilled p length hr hl _ _ _ hs
  · exact s.acts_refl

theorem State.acts_stageFromStore (hm : s.part.state ≠ .maintenance) :
    State.Acts s (stageFromStore p t length s).1 := by
  unfold stageFromStore
  split
  · exact s.acts_refl
  split
  · exact s.acts_refl
  split
  · exact s.acts_refl
  next hs =>
    split
    · exact s.acts_refl
    next hroom =>
      have hcreated : State.Acts s (s.createStaged t 0 [] .store (s.session p).number) :=
        State.acts_createStaged (n := 0) (Nat.zero_le _) (by simpa using hs) hr hl
      exact State.Acts.after (State.Act.acts (.enqueue _ (Nat.not_le.mp hroom) hm)) hcreated

theorem State.acts_stageOwner (table : Byte) (len : Word) (fill : Byte) (value : Word) :
    State.Acts s (stageOwner p table len fill value s).1 := by
  refine State.acts_writerTable fun t hm => ?_
  split
  · exact s.acts_refl
  split
  · exact State.acts_stageFromStore p _ hr hl hm
  · exact State.acts_stageSized _ (State.acts_stageFilled p _ hr hl _ _ _)
  · exact State.acts_stageSized _ (State.acts_stageFilled p _ hr hl _ _ _)
  · exact State.acts_stageSized _ (State.acts_stageCopy p _ hr hl)
  · exact s.acts_refl

end

theorem State.acts_writeOn (ws : List Word) (s : State) (job : WriteJob) :
    State.Acts s (State.writeOn ws s job).1 := by
  induction ws generalizing s job with
  | nil => exact s.acts_refl
  | cons w ws ih =>
    unfold State.writeOn
    split
    · exact (ih _ _).after (s.acts_writeGranted _ _ _ _)
    · exact s.acts_refl

theorem State.acts_writeTurn (s : State) (p : Port) (job : WriteJob) :
    State.Acts s (writeTurn p job s).1 := by
  have hwrite := State.acts_writeOn job.words s job
  unfold writeTurn
  dsimp only
  split
  · exact hwrite
  · exact (State.acts_setTurn _ _ _).after hwrite

theorem State.acts_writeOwner (s : State) (p : Port) (table : Byte) (offset : Word)
    (words : List Word) : State.Acts s (writeOwner p table offset words s).1 := by
  have hstart : State.Acts s (writeStart p table offset words s).1 := by
    refine State.acts_writerTable fun t _ => State.acts_withOpenStaged fun st => ?_
    split
    · exact s.acts_refl
    split
    · exact s.acts_setTurn _ _
    · exact s.acts_writeTurn _ _
  unfold writeOwner
  split
  · exact s.acts_writeTurn _ _
  all_goals exact hstart

theorem State.acts_commitOwner (s : State) (p : Port) (table hold : Byte) :
    State.Acts s (commitOwner p table hold s).1 :=
  State.acts_writerTable fun _ _ => State.acts_withOpenStaged fun _ =>
    (State.acts_quiet rfl).after (s.acts_setSub _ _)

theorem State.acts_leaveWorkList (s : State) (t : TableId) : State.Acts s (s.leaveWorkList t) :=
  State.acts_quiet rfl

/-- Entries leave the image store queue, whatever becomes of the operation in flight. -/
theorem State.acts_dequeue {s t : State}
    (h : t = { s with imageQueue := t.imageQueue, imageWork := t.imageWork })
    (hl : t.imageQueue.Sublist s.imageQueue) : State.Acts s t := by
  rw [h]
  exact (State.acts_quiet rfl).after (State.Act.dequeue _ hl).acts

theorem State.acts_leaveQueue (s : State) : State.Acts s s.leaveQueue :=
  State.acts_dequeue rfl (List.tail_sublist _)

theorem State.acts_withdrawStoreRead (s : State) (t : TableId) :
    State.Acts s (s.withdrawStoreRead t) := by
  refine State.acts_dequeue (State.withdrawStoreRead_frame s t) ?_
  unfold State.withdrawStoreRead
  split
  · exact .refl _
  next e rest hq =>
    split
    · split
      · rw [hq]; exact List.sublist_cons_self _ _
      · rw [hq]; exact List.filter_sublist.cons_cons _
    · rw [hq]; exact List.filter_sublist

theorem State.acts_endStagedWork (s : State) (t : TableId) :
    State.Acts s (s.endStagedWork t) := by
  unfold State.endStagedWork
  split
  next st hst =>
    have hlisted (x : Option HeadWork) : State.Acts s (State.leaveWorkList
        (match x with
          | some w =>
            match w.source with
            | some n => s.unpin t n
            | none => s
          | none => s) t) := by
      refine (State.acts_leaveWorkList _ _).after ?_
      split
      · split
        · exact s.acts_unpin _ _
        · exact s.acts_refl
      · exact s.acts_refl
    split
    · exact s.acts_withdrawStoreRead t
    iterate 4 exact hlisted _
    all_goals exact s.acts_refl
  · exact s.acts_refl

theorem State.acts_abandonStaged (s : State) (t : TableId) : State.Acts s (s.abandonStaged t) :=
  (State.acts_releaseStaged _ _).after (s.acts_endStagedWork t)

theorem State.acts_abortOwner (s : State) (p : Port) (table : Byte) :
    State.Acts s (abortOwner p table s).1 := by
  refine State.acts_writerTable fun t _ => ?_
  split
  · exact s.acts_abandonStaged t
  · exact s.acts_refl

theorem State.acts_completeFill (s : State) (t : TableId) (st : Staged) (source : Option Nat) :
    State.Acts s (s.completeFill t st source) := by
  refine (State.acts_tellWriter _ _ _ _).after ((State.acts_leaveWorkList _ _).after
    ((State.acts_setSub _ _ _).after ?_))
  split
  · exact s.acts_unpin _ _
  · exact s.acts_refl

theorem State.acts_failCopy (s : State) (t : TableId) (st : Staged) (source offset : Nat) :
    State.Acts s (s.failCopy t st source offset) :=
  (State.acts_tellWriter _ _ _ _).after ((State.acts_leaveWorkList _ _).after
    ((State.acts_releaseStaged _ _).after ((State.acts_unpin _ _ _).after
      (s.acts_parityReport _ _ _))))

theorem State.acts_fillOne (s : State) (t : TableId) (st : Staged) (w : HeadWork) (value : Word) :
    State.Acts s (s.fillOne t st w value) := by
  have hwrite := s.acts_writeGranted .staging st.version.pages w.offset value
  unfold State.fillOne
  dsimp only
  split
  · exact (State.acts_quiet rfl).after hwrite
  · exact (State.acts_completeFill _ _ _ _).after hwrite

theorem State.acts_copyOne (s : State) (t : TableId) (st : Staged) (w : HeadWork) (source : Nat) :
    State.Acts s (s.copyOne t st w source) := by
  unfold State.copyOne
  split
  · exact s.acts_fillOne _ _ _ _
  split
  · split
    · have hread := s.acts_grant .staging
      dsimp only
      split
      · refine State.Acts.after ?_ hread
        show State.Acts (s.grant .staging) _
        unfold State.writeCopied
        split
        · exact State.acts_fillOne _ _ _ _ _
        · exact State.acts_quiet rfl
      · exact (State.acts_failCopy _ _ _ _ _).after hread
    · exact s.acts_fillOne _ _ _ _
  · exact s.acts_refl

theorem State.acts_fillHead (s : State) : State.Acts s s.fillHead := by
  unfold State.fillHead
  split
  · split
    · dsimp only
      split
      · exact s.acts_fillOne _ _ _ _
      · exact s.acts_fillOne _ _ _ _
      · unfold State.copyStep
        split
        · exact s.acts_copyOne _ _ _ _
        split
        next hpin =>
          exact (State.acts_copyOne _ _ _ _ _).after
            ((State.acts_quiet rfl).after (State.acts_pinCurrent hpin))
        · exact s.acts_refl
      all_goals exact s.acts_refl
    · exact s.acts_refl
  · exact s.acts_refl

theorem State.acts_fillWord (s : State) : State.Acts s s.fillWord := by
  unfold State.fillWord
  split
  · exact s.acts_fillHead
  · exact s.acts_refl

theorem State.acts_swapCommitted (s : State) (t : TableId) (st : Staged) :
    State.Acts s (s.swapCommitted t st) :=
  (State.acts_tellWriter _ _ _ _).after (s.acts_swap t)

theorem State.acts_endSumming (s : State) (t : TableId) (st : Staged) (holdLimit : Nat)
    (check : Word) : State.Acts s (s.endSumming t st holdLimit check) := by
  unfold State.endSumming
  split
  · exact (State.acts_leaveWorkList _ _).after (s.acts_releaseStaged t)
  · have hleft := s.acts_leaveWorkList t
    dsimp only
    split
    · exact (State.acts_swapCommitted _ _ _).after ((State.acts_setStagedCheck _ _ _).after hleft)
    · split
      · exact (State.acts_tellWriter _ _ _ _).after ((State.acts_setSub _ _ _).after hleft)
      · exact (State.acts_setSub _ _ _).after ((State.acts_setStagedCheck _ _ _).after hleft)

theorem State.acts_sumOne (s : State) (t : TableId) (st : Staged) (w : HeadWork) (holdLimit : Nat) :
    State.Acts s (s.sumOne t st w holdLimit) := by
  have hread := s.acts_grant .staging
  unfold State.sumOne
  dsimp only
  split
  · split
    · exact (State.acts_quiet rfl).after hread
    · exact (State.acts_endSumming _ _ _ _ _).after hread
  · exact (State.acts_tellWriter _ _ _ _).after ((State.acts_leaveWorkList _ _).after
      ((State.acts_releaseStaged _ _).after ((State.acts_parityReport _ _ _ _).after hread)))

theorem State.acts_summingWord (s : State) : State.Acts s s.summingWord := by
  unfold State.summingWord State.sumHead
  split
  · split
    · split
      · split
        · exact s.acts_sumOne _ _ _ _
        all_goals exact s.acts_refl
      · exact s.acts_refl
    · exact s.acts_refl
  · exact s.acts_refl

theorem State.acts_endHold (s : State) (t : TableId) : State.Acts s (s.endHold t) := by
  unfold State.endHold
  split
  · split
    · split
      · exact s.acts_swapCommitted _ _
      · exact s.acts_releaseStaged _
    all_goals exact s.acts_refl
  · exact s.acts_refl
  · exact s.acts_refl

theorem State.acts_takeNotice (s : State) (t : TableId) : State.Acts s (s.takeNotice t) := by
  unfold State.takeNotice
  split
  · exact (State.acts_endHold _ _).after (State.acts_quiet rfl)
  · exact s.acts_refl

theorem State.acts_expireHold (s : State) (t : TableId) : State.Acts s (s.expireHold t) := by
  unfold State.expireHold
  split
  · split
    · exact (State.acts_tellWriter _ _ _ _).after ((State.acts_setSub _ _ _).after
        (s.acts_setStagedCheck _ _))
    all_goals exact s.acts_refl
  · exact s.acts_refl

theorem State.acts_endStagingOf (s : State) (p : Port) : State.Acts s (s.endStagingOf p) := by
  unfold State.endStagingOf
  split
  · refine (State.acts_foldl _ (fun s t => ?_) _ _).after (s.acts_takeEnd _ _)
    split
    · exact s.acts_abandonStaged t
    · exact s.acts_refl
  · exact s.acts_refl

/-! ### The image store -/

theorem State.acts_persistOwner (s : State) (p : Port) (table : Byte) :
    State.Acts s (persistOwner p table s).1 := by
  refine State.acts_writerTable fun t hm => ?_
  split
  · exact s.acts_refl
  unfold persistTable
  split
  · exact s.acts_refl
  split
  · exact s.acts_refl
  split
  · exact s.acts_refl
  split
  · exact s.acts_refl
  split
  · exact s.acts_refl
  next hroom => exact (State.Act.enqueue _ (Nat.not_le.mp hroom) hm).acts

theorem State.acts_endPersist (s : State) (e : QueueEntry) (done : Event) :
    State.Acts s (s.endPersist e done) := (State.acts_enterEvent _ _ _ _).after s.acts_leaveQueue

theorem State.acts_finishPersist (s : State) (job : PersistJob) (result : Status) (extra : Nat) :
    State.Acts s (s.finishPersist job result extra) := by
  unfold State.finishPersist
  split
  · exact (State.acts_endPersist _ _ _).after (s.acts_unpin _ _)
  · exact s.acts_refl

theorem State.acts_persistStart (s : State) : State.Acts s s.persistStart := by
  unfold State.persistStart
  split
  · exact s.acts_refl
  split
  · split
    · unfold State.startPersist
      split
      · exact s.acts_endPersist _ _
      split
      · exact s.acts_endPersist _ _
      split
      next hpin =>
        split
        · exact (State.acts_quiet rfl).after (State.acts_pinCurrent hpin)
        · exact (State.acts_endPersist _ _ _).after ((State.acts_unpin _ _ _).after
            (State.acts_pinCurrent hpin))
      · exact s.acts_refl
    all_goals exact s.acts_refl
  · exact s.acts_refl

theorem State.acts_setTableSlot (s : State) (t : TableId) (name : SlotName) (slot : TableSlot) :
    State.Acts s (s.setTableSlot t name slot) := s.acts_setPair _ _

theorem State.acts_persistErase (s : State) (verified : Bool) :
    State.Acts s (s.persistErase verified) := by
  unfold State.persistErase
  split
  next job _ =>
    have hslot := s.acts_setTableSlot job.table job.target TableSlot.erased
    dsimp only
    split
    · exact (State.acts_quiet rfl).after hslot
    · exact (State.acts_finishPersist _ _ _ _).after hslot
  all_goals exact s.acts_refl

theorem State.acts_programOne (s : State) (job : PersistJob) (offset : Nat) (verified : Bool) :
    State.Acts s (s.programOne job offset verified) := by
  have hread := s.acts_grant .imageStore
  unfold State.programOne
  dsimp only
  split
  · split
    · exact (State.acts_quiet rfl).after ((State.acts_setTableSlot _ _ _ _).after hread)
    · exact (State.acts_finishPersist _ _ _ _).after ((State.acts_setTableSlot _ _ _ _).after hread)
  · exact (State.acts_finishPersist _ _ _ _).after ((State.acts_parityReport _ _ _ _).after hread)

theorem State.acts_persistProgramWord (s : State) (verified : Bool) :
    State.Acts s (s.persistProgramWord verified) := by
  unfold State.persistProgramWord
  split
  · split
    · exact s.acts_programOne _ _ _
    · exact s.acts_refl
  all_goals exact s.acts_refl

theorem State.acts_persistMark (s : State) (verified : Bool) :
    State.Acts s (s.persistMark verified) := by
  unfold State.persistMark
  split
  · dsimp only
    split <;>
      exact (State.acts_finishPersist _ _ _ _).after (State.acts_setTableSlot _ _ _ _)
  all_goals exact s.acts_refl

theorem State.acts_failStoreRead (s : State) (t : TableId) (result : Status) :
    State.Acts s (s.failStoreRead t result) := by
  unfold State.failStoreRead
  split
  · exact (State.acts_tellWriter _ _ _ _).after ((State.acts_releaseStaged _ _).after
      s.acts_leaveQueue)
  · exact s.acts_leaveQueue

theorem State.acts_storeReadStart (s : State) : State.Acts s s.storeReadStart := by
  unfold State.storeReadStart
  split
  · exact s.acts_refl
  split
  · split
    · exact State.acts_quiet rfl
    all_goals exact s.acts_refl
  · exact s.acts_refl

/-- A STORE read begins with the lowest free pages for a version that has none yet (R124). -/
theorem State.acts_beginStoreRead {s : State} {t : TableId} {st : Staged} (name : SlotName)
    (h : TableHeader) (hst : (s.table t).staged = some st) (hp : st.version.pages = []) :
    State.Acts s (s.beginStoreRead t st name h) := by
  unfold State.beginStoreRead
  split
  · exact s.acts_failStoreRead _ _
  split
  next pages s1 ha =>
    obtain ⟨hn, rfl, rfl⟩ := State.allocate_some ha
    refine (State.acts_quiet rfl).after (State.Act.take t
      { s.table t with staged := some (st.begun h.length (s.freePool.take (pagesFor h.length))) }
      _ hn ?_ ?_ (.inr (by simp [hst]))).acts
    · simp only [TableRecord.pages, hst, hp, Staged.begun, List.perm_iff_count, List.count_append,
        List.count_nil]
      intro a
      omega
    · rintro ⟨h1, h2, h3, h4⟩
      refine ⟨h1, h2, fun x v hx hv => ?_, fun x w hx hw => ?_⟩ <;> cases hx
      · exact h3 st v hst hv
      · exact h4 st w hst hw
  · exact s.acts_failStoreRead _ _

theorem State.acts_slotVerifyRead (s : State) : State.Acts s s.slotVerifyRead := by
  unfold State.slotVerifyRead
  split
  · split
    · exact s.acts_failStoreRead _ _
    split
    · split
      next st hst =>
        split
        next hw =>
          simp only [Staged.awaitsStore, Bool.and_eq_true, List.isEmpty_iff] at hw
          exact State.acts_beginStoreRead _ _ hst hw.2
        · exact s.acts_refl
      · exact s.acts_refl
    · split
      · exact s.acts_failStoreRead _ _
      · exact State.acts_quiet rfl
  all_goals exact s.acts_refl

theorem State.acts_storeReadWord (s : State) (disturbed : Option Word) :
    State.Acts s (s.storeReadWord disturbed) := by
  unfold State.storeReadWord
  split
  · split
    · split
      · unfold State.storeReadOne
        dsimp only
        split
        · exact (State.acts_quiet rfl).after (s.acts_writeGranted _ _ _ _)
        split
        · exact (State.acts_tellWriter _ _ _ _).after ((State.acts_leaveQueue _).after
            ((State.acts_setSub _ _ _).after (s.acts_writeGranted _ _ _ _)))
        · exact (State.acts_failStoreRead _ _ _).after (s.acts_writeGranted _ _ _ _)
      · exact s.acts_refl
    · exact s.acts_refl
  all_goals exact s.acts_refl

theorem State.acts_endCharterWrite (s : State) (ok : Bool) (sequence : Option Nat) :
    State.Acts s (s.endCharterWrite ok sequence) := by
  unfold State.endCharterWrite
  split
  · exact (State.acts_quiet rfl).after s.acts_leaveQueue
  · exact s.acts_refl

theorem State.acts_charterWriteStart (s : State) : State.Acts s s.charterWriteStart := by
  unfold State.charterWriteStart
  split
  · exact s.acts_refl
  split
  · split
    · split
      · exact State.acts_quiet rfl
      · exact s.acts_endCharterWrite _ _
    all_goals exact s.acts_refl
  · exact s.acts_refl

theorem State.acts_setCharterSlot (s : State) (name : SlotName) (slot : CharterSlot) :
    State.Acts s (s.setCharterSlot name slot) := State.acts_quiet rfl

theorem State.acts_charterWriteErase (s : State) (verified : Bool) :
    State.Acts s (s.charterWriteErase verified) := by
  unfold State.charterWriteErase
  split
  · dsimp only
    split
    · exact (State.acts_quiet rfl).after (s.acts_setCharterSlot _ _)
    · exact (State.acts_endCharterWrite _ _ _).after (s.acts_setCharterSlot _ _)
  all_goals exact s.acts_refl

theorem State.acts_charterWriteCompletion (s : State) (verified : Bool) :
    State.Acts s (s.charterWriteCompletion verified) := by
  unfold State.charterWriteCompletion
  split
  · exact (State.acts_endCharterWrite _ _ _).after (s.acts_setCharterSlot _ _)
  all_goals exact s.acts_refl

theorem State.withdrawPort_frame (s : State) (p : Port) :
    s.withdrawPort p = { s with
      imageQueue := (s.withdrawPort p).imageQueue, imageWork := (s.withdrawPort p).imageWork } := by
  unfold State.withdrawPort
  split
  · rfl
  split
  · split <;> rfl
  · rfl

theorem State.acts_withdrawPort (s : State) (p : Port) : State.Acts s (s.withdrawPort p) := by
  refine State.acts_dequeue (s.withdrawPort_frame p) ?_
  unfold State.withdrawPort
  split
  · exact .refl _
  next e rest hq =>
    split
    · split
      · rw [hq]; exact List.filter_sublist.cons _
      · rw [hq]; exact List.filter_sublist.cons_cons _
    · rw [hq]; exact List.filter_sublist

theorem State.acts_endImageStore (s : State) (p : Port) : State.Acts s (s.endImageStore p) := by
  unfold State.endImageStore
  split
  · exact (State.acts_withdrawPort _ _).after (s.acts_takeEnd _ _)
  · exact s.acts_refl

/-! ### Scrubber -/

theorem State.acts_startPass (s : State) : State.Acts s s.startPass := by
  unfold State.startPass
  split <;> exact State.acts_quiet rfl

theorem State.acts_endVisit (s : State) (t : TableId) : State.Acts s (s.endVisit t) := by
  unfold State.endVisit
  split
  · exact State.acts_quiet rfl
  split
  · exact (State.acts_startPass _).after (State.acts_quiet rfl)
  · exact State.acts_quiet rfl

theorem State.acts_expireScrubPeriod (s : State) : State.Acts s s.expireScrubPeriod := by
  unfold State.expireScrubPeriod
  split
  · split
    · exact State.acts_quiet rfl
    · exact s.acts_startPass
  · exact s.acts_refl

theorem State.acts_scrubOne (s : State) (v : Visit) : State.Acts s (s.scrubOne v) := by
  unfold State.scrubOne
  split
  · dsimp only
    split
    · split
      · exact State.acts_quiet rfl
      · unfold State.compareVisit
        split
        · exact (State.acts_endVisit _ _).after (State.acts_quiet rfl)
        · exact (State.acts_quiet rfl).after (State.acts_quiet (t := s.setVisit _) rfl)
    · exact State.acts_quiet rfl
  · exact s.acts_endVisit _

theorem State.acts_scrubWord (s : State) : State.Acts s s.scrubWord := by
  unfold State.scrubWord
  split
  · split
    · exact s.acts_scrubOne _
    · exact s.acts_refl
  · exact s.acts_refl

theorem State.acts_takeReport (s : State) (r : Report) : State.Acts s (s.takeReport r) := by
  unfold State.takeReport
  dsimp only
  split
  · exact (State.acts_parityReport _ _ _ _).after (State.acts_quiet rfl)
  · exact (State.acts_checkReport _ _ _).after (State.acts_quiet rfl)

theorem State.acts_takeScrubReport (s : State) (r : Report) :
    State.Acts s (s.takeScrubReport r) := by
  unfold State.takeScrubReport
  split
  · refine State.Acts.after ?_ (s.acts_takeReport r)
    unfold State.endReportedVisit
    split
    · exact State.acts_endVisit _ _
    · exact State.acts_refl _
  · exact s.acts_takeReport r

end Sys2Proof.Machine

namespace Sys2Proof.Machine

/-! ### The part controller -/

theorem State.acts_changeSupply (s : State) (x : SupplyState) :
    State.Acts s (s.changeSupply x) := by
  unfold State.changeSupply
  split
  · exact s.acts_refl
  · exact (State.acts_enterEvents _ _ _).after (State.acts_quiet rfl)

theorem State.takeReport_frame (s : State) (r : Report) :
    s.takeReport r
      = { s.withRecordsOf (s.takeReport r) with reports := (s.takeReport r).reports } := by
  unfold State.takeReport
  dsimp only
  split
  · rw [State.parityReport_frame]; rfl
  · rw [State.checkReport_frame]; rfl

theorem State.takeReports_frame (s : State) :
    s.takeReports = { s.withRecordsOf s.takeReports with reports := s.takeReports.reports } := by
  unfold State.takeReports
  generalize s.reports = l
  induction l generalizing s with
  | nil => rfl
  | cons r rest ih =>
    rw [List.foldl_cons, ih, State.takeReport_frame]
    rfl

theorem mem_allPorts : ∀ p : Port, p ∈ allPorts := by decide

theorem State.acts_enterMaintenance {s : State} {p : Port} (hq : s.imageQueue = [])
    (ho : s.otherSessionOpen p = false) : State.Acts s (s.enterMaintenance p) := by
  have hreports : State.Acts s s.takeReports :=
    State.acts_foldl _ (fun s r => s.acts_takeReport r) _ _
  have hpart : s.takeReports.part = s.part := by rw [State.takeReports_frame]; rfl
  have hqueue : s.takeReports.imageQueue = [] := by rw [State.takeReports_frame]; exact hq
  have hclosed (q : Port) (hne : q ≠ p) : (s.takeReports.session q).isOpen = false := by
    rw [State.takeReports_frame]
    show (s.session q).isOpen = false
    simp only [State.otherSessionOpen, List.any_eq_false] at ho
    simpa [hne] using ho q (mem_allPorts q)
  have henter := (State.Act.enterMaintenance p s.part.charter hqueue hclosed).acts
  rw [hpart] at henter
  exact (State.acts_quiet rfl).after (henter.after hreports)

theorem State.acts_maintEnterOwner (s : State) (p : Port) :
    State.Acts s (maintEnterOwner p s).1 := by
  unfold maintEnterOwner
  split
  · exact s.acts_refl
  split
  · exact s.acts_refl
  split
  · exact s.acts_refl
  next ho =>
    split
    · exact s.acts_refl
    next hq =>
      split
      · exact s.acts_refl
      · exact State.acts_enterMaintenance (by simpa using hq) (by simpa using ho)

theorem State.acts_withWorkingCopy {s : State} {p : Port}
    {work : Charter → State → State × Option Reply}
    (h : ∀ c, s.part.state = .maintenance → s.part.working = some c → State.Acts s (work c s).1) :
    State.Acts s (withWorkingCopy p work s).1 := by
  unfold withWorkingCopy
  split
  next hm =>
    split
    next c hc => exact h c hm.1 hc
    · exact s.acts_refl
  · exact s.acts_refl

/-- CHARTER_READ only answers. -/
theorem State.acts_charterReadOwner (s : State) (p : Port) (entry : Byte) :
    State.Acts s (charterReadOwner p entry s).1 := by
  refine State.acts_withWorkingCopy fun c _ _ => ?_
  split <;> exact s.acts_refl

theorem State.acts_charterWriteOwner (s : State) (p : Port) (entry f0 f1 f2 f3 f4 : Byte) :
    State.Acts s (charterWriteOwner p entry f0 f1 f2 f3 f4 s).1 := by
  refine State.acts_withWorkingCopy fun c hm hc => ?_
  split
  · split
    next d _ =>
      exact State.Act.acts (.charter (some d) s.part.committed hm (by simp [hc]))
    · exact s.acts_refl
  · exact s.acts_refl

theorem State.acts_charterCommitOwner (s : State) (p : Port) :
    State.Acts s (charterCommitOwner p s).1 := by
  refine State.acts_withWorkingCopy fun c hm _ => ?_
  split
  · exact s.acts_refl
  next hnone =>
    split
    · exact s.acts_refl
    split
    · exact s.acts_refl
    · exact (State.Act.enqueueCharter _ rfl (by simpa using hnone) hm).acts

theorem State.acts_takeCharterResult (s : State) : State.Acts s s.takeCharterResult := by
  unfold State.takeCharterResult
  split
  next r rest _ =>
    have htaken : State.Acts s { s with charterResults := rest } := State.acts_quiet rfl
    dsimp only
    split
    next hcounts =>
      simp only [State.resultCounts, Bool.and_eq_true, decide_eq_true_eq] at hcounts
      refine (State.acts_enterEvent _ _ _ _).after (State.Acts.after ?_ htaken)
      exact State.Act.acts (s := { s with charterResults := rest })
        (.charter s.part.working (s.part.committed || r.ok) hcounts.1.1 rfl)
    · exact htaken
  · exact s.acts_refl

theorem State.acts_charterRestart (s : State) : State.Acts s s.charterRestart :=
  (State.Act.reset .charterRestart).acts

theorem State.acts_maintExitOwner (s : State) (p : Port) :
    State.Acts s (maintExitOwner p s).1 := by
  refine State.acts_withWorkingCopy fun c _ _ => ?_
  split
  · exact s.acts_refl
  split
  · exact s.acts_charterRestart
  next hc =>
    split
    · exact s.acts_refl
    · exact (State.Act.leaveMaintenance (by simpa using hc)).acts

theorem State.acts_endMaintenance (s : State) (p : Port) : State.Acts s (s.endMaintenance p) := by
  unfold State.endMaintenance
  split
  · split
    · exact s.acts_charterRestart
    next hc =>
      have hc' : (s.takeEnd p .partController).part.committed = false := by
        change s.part.committed = false
        simpa using hc
      exact (State.Act.leaveMaintenance hc').acts.after (s.acts_takeEnd p .partController)
  · exact s.acts_refl

/-! ### Opening a session -/

/-- A chain of steps that keep the part controller keeps it. -/
theorem State.foldl_part {α : Type} (f : State → α → State) (h : ∀ s x, (f s x).part = s.part)
    (l : List α) (s : State) : (l.foldl f s).part = s.part := by
  induction l generalizing s with
  | nil => rfl
  | cons x xs ih => rw [List.foldl_cons, ih, h]

theorem State.unbindSlot_part (s : State) (p : Port) (c : SlotId) :
    (s.unbindSlot p c).part = s.part := by
  unfold State.unbindSlot; split <;> simp

theorem State.unpinEntry_part (s : State) (p : Port) (i : Nat) :
    (s.unpinEntry p i).part = s.part := by
  unfold State.unpinEntry; split <;> simp

theorem State.endEvents_part (s : State) (p : Port) : (s.endEvents p).part = s.part := by
  unfold State.endEvents; split <;> rfl

theorem State.endCursors_part (s : State) (p : Port) (order : List SlotId) :
    (s.endCursors p order).part = s.part := by
  unfold State.endCursors
  split
  · rw [State.foldl_part _ fun s c => s.unbindSlot_part p c]; rfl
  · rfl

theorem State.endStack_part (s : State) (p : Port) (order : List Nat) :
    (s.endStack p order).part = s.part := by
  unfold State.endStack
  split
  · rw [State.setStack_part, State.foldl_part _ fun s i => s.unpinEntry_part p i]; rfl
  · rfl

theorem State.endStagingOf_part (s : State) (p : Port) : (s.endStagingOf p).part = s.part := by
  unfold State.endStagingOf
  split
  · rw [State.foldl_part _ fun s t => ?_]
    · rfl
    · split
      · rw [State.abandonStaged_frame]; rfl
      · rfl
  · rfl

theorem State.endImageStore_part (s : State) (p : Port) : (s.endImageStore p).part = s.part := by
  unfold State.endImageStore
  split
  · rw [State.withdrawPort_frame]; rfl
  · rfl

/-- The end of maintenance leaves the part as it is, or in LOADING, SERVICE or UNCHARTERED. -/
theorem State.endMaintenance_part (s : State) (p : Port) :
    (s.endMaintenance p).part = s.part
      ∨ ((s.endMaintenance p).part.state ≠ .reset
        ∧ (s.endMaintenance p).part.state ≠ .maintenance) := by
  unfold State.endMaintenance
  split
  · right
    split
    · exact ⟨by simp [State.charterRestart, State.partReset, PartController.atReset],
        by simp [State.charterRestart, State.partReset, PartController.atReset]⟩
    · rw [State.leaveMaintenance_frame]
      constructor <;> dsimp only <;> split <;> simp
  · exact .inl rfl

theorem State.settleEnds_part (s : State) (p : Port) :
    (s.settleEnds p).part = s.part
      ∨ ((s.settleEnds p).part.state ≠ .reset ∧ (s.settleEnds p).part.state ≠ .maintenance) := by
  unfold State.settleEnds
  obtain h | h := State.endMaintenance_part
    (((((s.endEvents p).endCursors p []).endStack p []).endStagingOf p).endImageStore p) p
  · left
    rw [h, State.endImageStore_part, State.endStagingOf_part, State.endStack_part,
      State.endCursors_part, State.endEvents_part]
  · exact .inr h

theorem State.acts_settleEnds (s : State) (p : Port) : State.Acts s (s.settleEnds p) :=
  (State.acts_endMaintenance _ _).after ((State.acts_endImageStore _ _).after
    ((State.acts_endStagingOf _ _).after ((State.acts_endStack _ _ _).after
      ((State.acts_endCursors _ _ _).after (s.acts_endEvents p)))))

theorem State.acts_takeOpen {s : State} {p : Port} (lease : Word) (hr : s.part.state ≠ .reset)
    (hl : s.part.state ≠ .loading) (hm : s.part.state = .maintenance → s.part.maintPort = some p) :
    State.Acts s (takeOpen p lease s).1 := (State.Act.openSession p lease.toNat hr hl hm).acts

theorem State.acts_openOwner {s : State} {p : Port} {lease : Word} (hr : s.part.state ≠ .reset) :
    State.Acts s (openOwner p lease s).1 := by
  unfold openOwner
  split
  · exact s.acts_refl
  next hok =>
    have hport : s.part.state = .maintenance → s.part.maintPort = some p := by
      intro hm
      by_contra hne
      simp [State.openRefusal, hm, hne] at hok
    have hsettled := s.acts_settleEnds p
    have hpart := s.settleEnds_part p
    generalize s.settleEnds p = s1 at hsettled hpart ⊢
    dsimp only
    split
    · exact hsettled
    next hl =>
      refine (State.acts_takeOpen lease ?_ hl ?_).after hsettled
      · obtain h | h := hpart
        · rwa [h]
        · exact h.1
      · obtain h | h := hpart
        · rwa [h]
        · exact fun hm => absurd hm h.2

/-! ### Frames -/

theorem State.acts_openFrame (s : State) (p : Port) : State.Acts s (s.openFrame p) := by
  unfold State.openFrame
  dsimp only
  split
  · split
    · exact s.acts_refl
    · exact s.acts_setEngine _ _
  · split
    · exact s.acts_setEngine _ _
    · exact s.acts_refl

theorem State.acts_closeFrame (s : State) (p : Port) (bits : List Bool) :
    State.Acts s (s.closeFrame p bits) := by
  unfold State.closeFrame
  dsimp only
  split
  · exact s.acts_setEngine _ _
  split
  · refine State.Acts.after ?_ (s.acts_setEngine p (s.engine p).closed)
    unfold State.applyVerdict
    split
    · exact State.acts_refl _
    · exact State.acts_setEngine _ _ _
    · exact (State.acts_restartLease _ _).after (State.acts_setEngine _ _ _)
    · exact State.acts_setEngine _ _ _
  · exact s.acts_refl

theorem State.acts_pendingFall (s : State) (p : Port) : State.Acts s (s.pendingFall p) := by
  unfold State.pendingFall
  dsimp only
  split
  · split
    · exact s.acts_setEngine _ _
    · exact s.acts_refl
  · exact s.acts_refl

theorem State.acts_pendingRise (s : State) (p : Port) : State.Acts s (s.pendingRise p) := by
  unfold State.pendingRise
  dsimp only
  split
  · exact s.acts_setEngine _ _
  · exact s.acts_refl

theorem State.acts_breakPort (s : State) (p : Port) : State.Acts s (s.breakPort p) := by
  unfold State.breakPort
  dsimp only
  split
  · exact (State.acts_endSession _ _ _).after (s.acts_setEngine _ _)
  · exact s.acts_refl

theorem State.acts_discardRise (s : State) (p : Port) : State.Acts s (s.discardRise p) := by
  unfold State.discardRise
  dsimp only
  split
  · exact s.acts_setEngine _ _
  · exact s.acts_refl

theorem State.acts_expireLease (s : State) (p : Port) : State.Acts s (s.expireLease p) := by
  unfold State.expireLease
  split
  · exact s.acts_endSession _ _
  · exact s.acts_refl

theorem State.acts_enterReset (s : State) (k : ResetKind) : State.Acts s (s.enterReset k) := by
  unfold State.enterReset
  split
  · exact s.acts_refl
  · exact (State.Act.reset k).acts

/-! ### Every command -/

/-- Every command answers a state that comes from its own by acts. -/
theorem exec_acts (i : Instr) (s : State) : ∃ t, exec i s = .next t ∧ State.Acts s t := by
  cases i with
  | frame p bits => exact ⟨_, rfl, s.acts_closeFrame p bits⟩
  | pending p edge =>
    cases edge with
    | fall => exact ⟨_, rfl, s.acts_pendingFall p⟩
    | rise => exact ⟨_, rfl, s.acts_pendingRise p⟩
  | portBreak p => exact ⟨_, rfl, s.acts_breakPort p⟩
  | nop p => exact ⟨_, rfl, State.acts_serve fun s1 _ _ => s1.acts_refl⟩
  | status p => exact ⟨_, rfl, State.acts_serve fun s1 _ _ => s1.acts_refl⟩
  | openSession p lease => exact ⟨_, rfl, State.acts_serve fun s1 hr _ => State.acts_openOwner hr⟩
  | close p => exact ⟨_, rfl, State.acts_serve fun s1 _ _ => s1.acts_endSession p _⟩
  | mask p m => exact ⟨_, rfl, State.acts_serve fun s1 _ _ => s1.acts_maskOwner p m⟩
  | events p n => exact ⟨_, rfl, State.acts_serve fun s1 _ _ => s1.acts_eventsOwner p n⟩
  | tableInfo p table =>
    refine ⟨_, rfl, State.acts_serve fun s1 _ _ => ?_⟩
    unfold tableInfoOwner
    split <;> exact s1.acts_refl
  | bind p slot table offset mode stride follow => exact ⟨_, rfl, s.acts_bindTurn _ _ _ _ _ _ _⟩
  | unbind p slot => exact ⟨_, rfl, State.acts_serve fun s1 _ _ => s1.acts_unbindOwner p slot⟩
  | seek p slot offset => exact ⟨_, rfl, State.acts_serve fun s1 _ _ => s1.acts_seekOwner _ _ _⟩
  | fetch p slot count words =>
    exact ⟨_, rfl, State.acts_serve fun s1 _ _ => s1.acts_fetchOwner _ _ _ _⟩
  | peek p slot offset count words =>
    exact ⟨_, rfl, State.acts_serve fun s1 _ _ => s1.acts_peekOwner _ _ _ _ _⟩
  | resync p slot => exact ⟨_, rfl, State.acts_serve fun s1 _ _ => s1.acts_resyncOwner p slot⟩
  | cursorInfo p slot =>
    exact ⟨_, rfl, State.acts_serve fun s1 _ _ => by rw [cursorInfoOwner_state]⟩
  | save p slot => exact ⟨_, rfl, State.acts_serve fun s1 _ _ => s1.acts_saveOwner p slot⟩
  | restore p slot => exact ⟨_, rfl, State.acts_serve fun s1 _ _ => s1.acts_restoreOwner p slot⟩
  | discard p => exact ⟨_, rfl, State.acts_serve fun s1 _ _ => s1.acts_discardOwner p⟩
  | stage p table length fill value =>
    exact ⟨_, rfl, State.acts_serve fun s1 hr hl =>
      State.acts_stageOwner p hr (hl (by simp)) table length fill value⟩
  | write p table offset words =>
    exact ⟨_, rfl, State.acts_serve fun s1 _ _ => s1.acts_writeOwner _ _ _ _⟩
  | commit p table hold => exact ⟨_, rfl, State.acts_serve fun s1 _ _ => s1.acts_commitOwner _ _ _⟩
  | abort p table => exact ⟨_, rfl, State.acts_serve fun s1 _ _ => s1.acts_abortOwner _ _⟩
  | persist p table => exact ⟨_, rfl, State.acts_serve fun s1 _ _ => s1.acts_persistOwner _ _⟩
  | maintEnter p => exact ⟨_, rfl, State.acts_serve fun s1 _ _ => s1.acts_maintEnterOwner p⟩
  | charterRead p entry =>
    exact ⟨_, rfl, State.acts_serve fun s1 _ _ => s1.acts_charterReadOwner _ _⟩
  | charterWrite p entry f0 f1 f2 f3 f4 =>
    exact ⟨_, rfl, State.acts_serve fun s1 _ _ => s1.acts_charterWriteOwner _ _ _ _ _ _ _⟩
  | charterCommit p => exact ⟨_, rfl, State.acts_serve fun s1 _ _ => s1.acts_charterCommitOwner p⟩
  | maintExit p => exact ⟨_, rfl, State.acts_serve fun s1 _ _ => s1.acts_maintExitOwner p⟩
  | leaseExpiry p => exact ⟨_, rfl, s.acts_expireLease p⟩
  | sessionEndEventUnit p => exact ⟨_, rfl, s.acts_endEvents p⟩
  | sessionEndCursorFile p order => exact ⟨_, rfl, s.acts_endCursors p order⟩
  | sessionEndSaveStacks p order => exact ⟨_, rfl, s.acts_endStack p order⟩
  | sessionEndStaging p => exact ⟨_, rfl, s.acts_endStagingOf p⟩
  | sessionEndImageStore p => exact ⟨_, rfl, s.acts_endImageStore p⟩
  | maintenanceSessionEnd p => exact ⟨_, rfl, s.acts_endMaintenance p⟩
  | parityReport t version page => exact ⟨_, rfl, s.acts_takeScrubReport _⟩
  | checkReport t version => exact ⟨_, rfl, s.acts_takeScrubReport _⟩
  | fillWord => exact ⟨_, rfl, s.acts_fillWord⟩
  | summingWord => exact ⟨_, rfl, s.acts_summingWord⟩
  | retirementNotice t => exact ⟨_, rfl, s.acts_takeNotice t⟩
  | holdDeadline t => exact ⟨_, rfl, s.acts_expireHold t⟩
  | persistStart => exact ⟨_, rfl, s.acts_persistStart⟩
  | persistErase verified => exact ⟨_, rfl, s.acts_persistErase verified⟩
  | persistProgramWord verified => exact ⟨_, rfl, s.acts_persistProgramWord verified⟩
  | persistMarking verified => exact ⟨_, rfl, s.acts_persistMark verified⟩
  | storeReadStart => exact ⟨_, rfl, s.acts_storeReadStart⟩
  | slotVerifyRead => exact ⟨_, rfl, s.acts_slotVerifyRead⟩
  | storeReadWord disturbed => exact ⟨_, rfl, s.acts_storeReadWord disturbed⟩
  | charterWriteStart => exact ⟨_, rfl, s.acts_charterWriteStart⟩
  | charterWriteErase verified => exact ⟨_, rfl, s.acts_charterWriteErase verified⟩
  | charterWriteCompletion verified => exact ⟨_, rfl, s.acts_charterWriteCompletion verified⟩
  | charterWriteResult => exact ⟨_, rfl, s.acts_takeCharterResult⟩
  | powerOn => exact ⟨_, rfl, (State.Act.reset .powerOn).acts⟩
  | pinReset => exact ⟨_, rfl, s.acts_enterReset .pin⟩
  | supplyReset => exact ⟨_, rfl, s.acts_enterReset .supply⟩
  | resetRelease millivolts => exact ⟨_, rfl, (State.Act.releaseReset millivolts).acts⟩
  | charterSelection => exact ⟨_, rfl, State.Act.selectCharter.acts⟩
  | loadTable disturbed => exact ⟨_, rfl, (State.Act.loadTable disturbed).acts⟩
  | supplyStateLow => exact ⟨_, rfl, s.acts_changeSupply .low⟩
  | supplyStateOk => exact ⟨_, rfl, s.acts_changeSupply .ok⟩
  | scrubPeriodExpiry => exact ⟨_, rfl, s.acts_expireScrubPeriod⟩
  | scrubWord => exact ⟨_, rfl, s.acts_scrubWord⟩
  | frameOpen p => exact ⟨_, rfl, s.acts_openFrame p⟩
  | discardingRise p => exact ⟨_, rfl, s.acts_discardRise p⟩

/-- A law that reads nothing of the queue of commands and that every act keeps is kept by every
step. -/
theorem State.keptByStep_of_acts {law : State → Prop}
    (hpending : ∀ s l, law s → law { s with pending := l })
    (hact : ∀ s t, State.Act s t → law s → law t) : State.KeptByStep law := by
  intro s t hs hstep
  unfold step at hstep
  split at hstep
  · cases hstep; exact hs
  next c rest _ =>
    obtain ⟨u, hu, hacts⟩ := exec_acts c { s with pending := rest }
    rw [hu] at hstep
    cases hstep
    exact hacts.keeps hact (hpending s rest hs)

/-! ## The laws settled -/

/-- Settles O55: the acts that write memory keep its form; the others leave it alone. -/
theorem memoryStaysCanonical : Obligations.MemoryStaysCanonical :=
  State.keptByStep_of_acts (fun _ _ h => h) fun _ _ hact h => hact.memoryCanonical h

/-- Settles O56: an act that adds to a queue or a stack has room for it. -/
theorem queuesStayWithinCapacity : Obligations.QueuesStayWithinCapacity :=
  State.keptByStep_of_acts (fun _ _ h => h) fun _ _ hact h => hact.withinCapacity h

/-- Settles O57: acts move pages between the pool, the quarantine list and the page lists; the order of
loading says that LOAD_TABLE fills vacant tables only. -/
theorem everyPageStaysAccountedFor : Obligations.EveryPageStaysAccountedFor :=
  ⟨State.keptByStep_of_acts (fun _ _ h => h)
    fun _ _ hact ⟨hpages, horder⟩ => ⟨hact.pagesAccounted horder hpages, hact.loadInOrder horder⟩,
   State.keptByStep_of_acts (fun _ _ h => h) fun _ _ hact h => hact.poolAscending h⟩

/-- Settles O58: every act leaves a lawful record where it finds one. -/
theorem rolesStayLawful : Obligations.RolesStayLawful :=
  State.keptByStep_of_acts (fun _ _ h => h)
    fun _ _ hact ⟨hroles, horder⟩ => ⟨hact.rolesLawful horder hroles, hact.loadInOrder horder⟩

/-- Settles O59: sessions and the part controller change only in acts that know each other's state. -/
theorem sessionsStayLawful : Obligations.SessionsStayLawful :=
  State.keptByStep_of_acts (fun _ _ h => h) fun _ _ hact h => hact.sessionLaws h

/-! ## Steps -/

/-- Settles O1: by the definition of a step. -/
theorem stepTakesTheFrontCommand : Obligations.StepTakesTheFrontCommand := fun _ _ _ => rfl

/-- Settles O2: every command is a chain of acts, and no act touches the queue of commands. -/
theorem everyCommandAnswersNext : Obligations.EveryCommandAnswersNext := by
  intro c s
  obtain ⟨t, ht, hacts⟩ := exec_acts c s
  exact ⟨t, ht, hacts.keeps (law := fun u => u.pending = s.pending)
    (fun _ _ hact h => hact.pending_eq.trans h) rfl⟩

/-! ## The machine after reset -/

theorem State.reset_vacant (t : TableId) : (State.reset.table t).vacant := by
  simp [State.reset, State.table, TableRecord.vacant, TableRecord.fresh]

theorem State.reset_session (p : Port) : State.reset.session p = Session.fresh := by
  simp [State.reset, State.session]

theorem State.reset_withinCapacity : State.reset.withinCapacity := by
  refine ⟨fun p => ?_, fun p => ?_, by decide, fun h => nomatch h⟩
  · have hq : State.reset.queue p = EventQueue.fresh := by simp [State.reset, State.queue]
    rw [hq]
    exact EventQueue.bounded_fresh
  · have hst : State.reset.stack p = [] := by simp [State.reset, State.stack]
    simp [hst]

theorem State.reset_sessionsLawful : State.reset.sessionsLawful := by
  intro p
  rw [State.reset_session]
  simp [Session.fresh]

/-- Settles O60: after reset no table holds a version, every page is free and every session closed. -/
theorem lawsHoldAtReset : Obligations.LawsHoldAtReset := by
  refine ⟨Memory.wf_nil, State.reset_withinCapacity, ?pages, List.pairwise_lt_range, ?loading, ?roles,
    State.reset_sessionsLawful, ?maintenance⟩
  case pages =>
    rw [State.pagesAccounted_iff, State.tablePages_of_vacant State.reset_vacant]
    simp [State.reset, Config.pageCount]
  case loading => exact ⟨fun _ => State.reset_vacant, fun h => nomatch h⟩
  case roles => exact fun t => TableRecord.lawful_of_vacant (State.reset_vacant t)
  case maintenance =>
    have hpart : State.reset.part = PartController.fresh := rfl
    simp [State.maintenanceLawful, hpart, PartController.fresh]

end Sys2Proof.Machine

namespace Sys2Proof

/-! ## Bytes, words and requests of the wire -/

theorem wordOfBytes_high_low (w : Word) : wordOfBytes (highByte w) (lowByte w) = w := by
  apply BitVec.eq_of_getLsbD_eq
  intro i hi
  show ((highByte w) ++ (lowByte w)).getLsbD i = _
  rw [BitVec.getLsbD_append]
  by_cases h : i < 8
  · simp [h, lowByte]
  · have : 8 + (i - 8) = i := by omega
    simp [h, highByte, this]
    omega

theorem wordsOfBytes_flatMap (ws : List Word) :
    wordsOfBytes (ws.flatMap bytesOfWord) = some ws := by
  induction ws with
  | nil => rfl
  | cons w ws ih =>
    simp only [List.flatMap_cons, bytesOfWord, List.cons_append, List.nil_append, wordsOfBytes]
    rw [ih, wordOfBytes_high_low]

theorem length_flatMap_bytesOfWord (ws : List Word) :
    (ws.flatMap bytesOfWord).length = 2 * ws.length := by
  induction ws with
  | nil => rfl
  | cons w ws ih =>
    rw [List.flatMap_cons, List.length_append, ih, List.length_cons]
    simp only [bytesOfWord, List.length_cons, List.length_nil]
    omega

/-- Code and operand bytes of a request give it back (section 11.5). -/
theorem decodeRequest_operands {r : Request} (h : r.wellFormed = true) :
    decodeRequest r.code r.operands = some r := by
  cases r with
  | write t o ws =>
    simp only [Request.wellFormed, Bool.and_eq_true, decide_eq_true_eq] at h
    simp [decodeRequest, Request.code, Request.operands, bytesOfWord, decodeWrite,
      wordOfBytes_high_low]
    simp only [wordsOfBytes_flatMap, h, and_self, if_true]
  | _ =>
    simp [decodeRequest, Request.code, Request.operands, bytesOfWord, wordOfBytes_high_low]

theorem Request.operands_length {r : Request} (h : r.wellFormed = true) :
    r.operands.length ≤ 40 := by
  cases r with
  | write t o ws =>
    simp only [Request.wellFormed, Bool.and_eq_true, decide_eq_true_eq] at h
    simp only [Request.operands, List.length_append, length_flatMap_bytesOfWord, bytesOfWord,
      List.length_cons, List.length_nil]
    omega
  | _ => simp [Request.operands, bytesOfWord]

theorem byteOfBits_bitsOfByte (x : Byte) : byteOfBits (bitsOfByte x) = x := by
  revert x; decide

/-- Whole bytes come back from their samples, and fewer than eight samples after them do not count
(R168). -/
theorem bytesOfBits_bitsOfBytes (bytes : List Byte) {tail : List Bool} (h : tail.length < 8) :
    bytesOfBits (bitsOfBytes bytes ++ tail) = bytes := by
  induction bytes with
  | nil =>
    show bytesOfBits tail = []
    match tail, h with
    | [], _ | [_], _ | [_, _], _ | [_, _, _], _ | [_, _, _, _], _ | [_, _, _, _, _], _
    | [_, _, _, _, _, _], _ | [_, _, _, _, _, _, _], _ => rfl
    | _ :: _ :: _ :: _ :: _ :: _ :: _ :: _ :: _, h => simp at h; omega
  | cons x xs ih =>
    have hcons : bytesOfBits (bitsOfBytes (x :: xs) ++ tail)
        = byteOfBits (bitsOfByte x) :: bytesOfBits (bitsOfBytes xs ++ tail) := rfl
    rw [hcons, ih, byteOfBits_bitsOfByte]

/-- Settles O3: the length byte names the operands, the CRC stands behind them, and code and operands
give the request back. -/
theorem requestFramesDecode : Obligations.RequestFramesDecode := by
  intro r tag extra h
  have hlen := Request.operands_length h
  have hval : (BitVec.ofNat 8 r.operands.length : Byte).toNat = r.operands.length := by
    rw [BitVec.toNat_ofNat]; exact Nat.mod_eq_of_lt (by omega)
  have htake (c : Byte) : (r.operands ++ ([c] ++ extra)).take r.operands.length = r.operands :=
    List.take_left' rfl
  have hget (c : Byte) : (r.operands ++ ([c] ++ extra)).getD r.operands.length 0 = c := by
    simp [List.getD_eq_getElem?_getD]
  have hframe : r.frame tag ++ extra = r.code :: tag :: BitVec.ofNat 8 r.operands.length
      :: (r.operands ++ ([crc8 (r.body tag)] ++ extra)) := by
    simp [Request.frame, Request.body]
  have hshort : ¬(r.operands ++ ([crc8 (r.body tag)] ++ extra)).length ≤ r.operands.length := by
    simp
  have hbody : [r.code, tag, BitVec.ofNat 8 r.operands.length] ++ r.operands = r.body tag := rfl
  rw [hframe]
  simp only [judgeFrame, hval, htake, hget, hbody, decodeRequest_operands h, if_true,
    if_neg (Nat.not_lt.mpr hlen), if_neg hshort]

end Sys2Proof

namespace Sys2Proof.Machine

/-! ## Frames -/

/-- The rise of a frame that was opened while no request was in progress is judged (R169). -/
theorem exec_frame_judged {p : Port} {s : State} {tail : List Bool} (bytes : List Byte)
    (hr : s.part.state ≠ .reset) (hrx : (s.engine p).rx = .receiving)
    (hm : (s.engine p).metPending = false) (ht : tail.length < 8) :
    exec (.frame p (bitsOfBytes bytes ++ tail)) s
      = .next ((s.setEngine p (s.engine p).closed).applyVerdict p (judgeFrame bytes)) := by
  show Host.Outcome.next (s.closeFrame p _) = _
  simp only [State.closeFrame, if_neg hr, hrx, hm, and_self, if_true, bytesOfBits_bitsOfBytes _ ht]

/-- Settles O5: one outcome of the judgement of R169 for each form of the bytes. -/
theorem frameIsJudgedAtItsRise : Obligations.FrameIsJudgedAtItsRise := by
  refine ⟨fun p r tag extra tail s hr hrx hm hwf ht => ?taken, fun p bytes tail s hr hrx hm ht => ?_⟩
  case taken =>
    rw [exec_frame_judged _ hr hrx hm ht, requestFramesDecode r tag extra hwf]
    simp [State.applyVerdict, PortEngine.closed]
  have hjudged := exec_frame_judged bytes hr hrx hm ht
  dsimp only
  refine ⟨?_, ?_, ?_, ?_, ?_⟩
  · rintro rfl; rw [hjudged]; rfl
  · rintro code rfl
    rw [hjudged]
    simp [judgeFrame, State.applyVerdict, PortEngine.closed, Response.bare]
  · rintro code tag rfl
    rw [hjudged]
    simp [judgeFrame, State.applyVerdict, PortEngine.closed, Response.bare]
  · rintro code tag len rest rfl hbad
    have herror : judgeFrame (code :: tag :: len :: rest) = .error tag := by
      simp only [judgeFrame]
      split
      · rfl
      next h40 =>
        split
        · rfl
        next hlong =>
          rw [if_neg]
          rcases hbad with h | h | h
          · exact absurd h h40
          · omega
          · exact h
    rw [hjudged, herror]
    simp [State.applyVerdict, PortEngine.closed, Response.bare]
  · rintro code tag len rest rfl h40 hlong hcrc hnone
    have hbad : judgeFrame (code :: tag :: len :: rest) = .badRequest tag := by
      simp only [judgeFrame]
      rw [if_neg (Nat.not_lt.mpr h40), if_neg (by omega), if_pos (by exact hcrc), hnone]
    rw [hjudged, hbad]
    simp [State.applyVerdict, PortEngine.closed, Response.bare]

/-- The byte at a position of a response is what its frame shifts out there, and 0xFF after its end. -/
theorem State.sdoByte_some {s : State} {p : Port} {r : Response} (h : (s.engine p).shiftOut = some r)
    (i : Nat) : s.sdoByte p i = some (r.bytes.getD i 0xFF) := by
  simp [State.sdoByte, h]

/-- Settles O4: the four rows set the port engine, and the response is shifted out byte by byte. -/
theorem framesOpenAndEnd : Obligations.FramesOpenAndEnd := by
  refine ⟨fun p s hr hrx hnone => ?_, fun p s hrx => ?_, fun p job s hr hrx hjob => ?_,
    fun p s hrx hm => ?_, fun p s => ⟨fun h i => ?_, fun r h => ?_⟩, fun p i j s hj => ?_⟩
  · show Host.Outcome.next (s.openFrame p) = _
    simp [State.openFrame, hr, hrx, hnone, PortEngine.opened]
  · show Host.Outcome.next (s.discardRise p) = _
    simp [State.discardRise, hrx, PortEngine.closed]
  · show Host.Outcome.next (s.pendingFall p) = _
    simp [State.pendingFall, hr, hrx, hjob, PortEngine.opened, Response.bare]
  · show Host.Outcome.next (s.pendingRise p) = _
    simp [State.pendingRise, hrx, hm, PortEngine.closed]
  · simp [State.sdoByte, h]
  · intro body
    have hbytes : r.bytes = body ++ [crc8 body] := rfl
    refine ⟨fun i b hb => ?_, ?_, fun i hi => ?_⟩ <;> rw [State.sdoByte_some h, hbytes]
    · obtain ⟨hi, -⟩ := List.getElem?_eq_some_iff.mp hb
      rw [List.getD_eq_getElem?_getD, List.getElem?_append_left hi, hb, Option.getD_some]
    · simp [List.getD_eq_getElem?_getD]
    · rw [List.getD_eq_getElem?_getD, List.getElem?_eq_none (by simp; omega), Option.getD_none]
  · rw [State.sdoBit_byte s p i hj]
    exact ⟨fun h => by rw [h]; rfl, fun b h => by rw [h]; rfl⟩

/-- The end of an open session at the session unit (R140). -/
theorem State.endSession_open {s : State} {p : Port} (cause : Departure)
    (h : (s.session p).isOpen = true) :
    s.endSession p cause = (s.setSession p
      { s.session p with isOpen := false, leaseTimer := none, departure := cause }).setEnds p
        ([.eventUnit, .cursorFile, .saveStacks, .stagingEngine, .imageStore]
          ++ if s.part.maintPort = some p then [.partController] else []) := by
  simp [State.endSession, h, State.endTargets]

theorem State.endSession_closed {s : State} {p : Port} (cause : Departure)
    (h : (s.session p).isOpen = false) : s.endSession p cause = s := by
  simp [State.endSession, h]

/-- Settles O6: the measurement decides whether there is a break, and the session whether it ends
one. -/
theorem portBreakEndsFrameAndSession : Obligations.PortBreakEndsFrameAndSession := by
  intro p s
  have hexec : exec (.portBreak p) s = .next (s.breakPort p) := rfl
  rw [hexec]
  refine ⟨fun h => ?_, fun h hnone => ?_⟩
  · simp [State.breakPort, h]
  · intro broken
    have hbreak : s.breakPort p = broken.endSession p .portBreak := if_pos ⟨h, hnone⟩
    rw [hbreak]
    refine ⟨fun ho => ?_, fun ho => ?_⟩
    · rw [State.endSession_closed (s := broken) _ ho]
    · rw [State.endSession_open (s := broken) _ ho]; rfl

end Sys2Proof.Machine

namespace Sys2Proof.Machine

/-! ## The gate -/

/-- A BIND that does not stand at its pin is served as every request is (log 35). -/
theorem State.bindTurn_eq_serve {s : State} {p : Port} (req : Request) (owner : Owner)
    (h : ∀ c new length damaged, s.turn p ≠ .pinned c new length damaged) :
    s.bindTurn p req owner = s.serve p req owner := by
  unfold State.bindTurn
  split
  next ht => exact absurd ht (h _ _ _ _)
  all_goals rfl

/-- The row of a request at its start serves it; the owner of a request on tables refuses it in
MAINTENANCE (R42, R64, R76, R116). -/
theorem exec_eq_serve {i : Instr} {p : Port} {r : Request} {tag : Byte} {s : State}
    (hi : i.asRequest = some (p, r)) (h : s.asks p r tag) :
    ∃ owner : Owner, exec i s = .next (s.serve p r owner)
      ∧ (r.usesTables = true → ∀ s1 : State, s1.turn p = .start → s1.part.state = .maintenance →
        owner s1 = refusing s1 .maintenance) := by
  cases i with
  | bind p slot table offset mode stride follow =>
    cases hi
    refine ⟨_, congrArg _ (State.bindTurn_eq_serve _ _ fun _ _ _ _ ht => ?_),
      fun _ s1 _ hm => outsideMaintenance_in _ hm⟩
    rw [State.turn_asks h] at ht
    cases ht
  | fetch p slot count words =>
    cases hi
    refine ⟨_, rfl, fun _ s1 ht hm => ?_⟩
    simp only [fetchOwner, inTurns, ht, outsideMaintenance_in _ hm]
  | peek p slot offset count words =>
    cases hi
    refine ⟨_, rfl, fun _ s1 ht hm => ?_⟩
    simp only [peekOwner, inTurns, ht, outsideMaintenance_in _ hm]
  | write p table offset words =>
    cases hi
    refine ⟨_, rfl, fun _ s1 ht hm => ?_⟩
    simp only [writeOwner, ht, writeStart, writerTable, outsideMaintenance_in _ hm]
  | unbind | seek | resync | cursorInfo | save | restore | discard | stage | commit | abort
  | persist => cases hi; exact ⟨_, rfl, fun _ s1 _ hm => outsideMaintenance_in _ hm⟩
  | nop | status | openSession | close | mask | events | tableInfo | maintEnter | charterRead
  | charterWrite | charterCommit | maintExit =>
    cases hi; exact ⟨_, rfl, fun hu => nomatch hu⟩
  | _ => cases hi

theorem State.gate_loading {s : State} (p : Port) {r : Request} (hr : r ≠ .status)
    (hl : s.part.state = .loading) : s.gate p r = some .notReady := by
  cases r with
  | status => exact absurd rfl hr
  | _ => simp [State.gate, hl]

theorem State.gate_closed {s : State} {p : Port} {r : Request} (hr : r ≠ .status)
    (ho : ∀ lease, r ≠ .openSession lease) (hl : s.part.state ≠ .loading)
    (hc : (s.session p).isOpen = false) : s.gate p r = some .noSession := by
  cases r with
  | status => exact absurd rfl hr
  | openSession lease => exact absurd rfl (ho lease)
  | _ => simp [State.gate, hl, hc]

/-- Settles O7: the gate refuses before the owner, and the owner refuses first of all. -/
theorem gateAndMaintenanceRefuseRequests : Obligations.GateAndMaintenanceRefuseRequests := by
  intro i p r tag s hi hasks
  obtain ⟨owner, hexec, howner⟩ := exec_eq_serve hi hasks
  rw [hexec]
  refine ⟨fun hr hne => ⟨fun hl => ?_, fun hl ho hc => ?_⟩, fun hu hm ho => ?_⟩
  · rw [State.serve_refused owner hasks hr (State.gate_loading p hne hl)]
  · rw [State.serve_refused owner hasks hr (State.gate_closed hne ho hl hc)]
  · have hadmits : s.admits p := ⟨by simp [hm], by simp [hm], ho⟩
    exact congrArg _ (State.serve_admitted hasks hadmits
      (howner hu (s.leaseRenewed p) (State.turn_asks hasks) hm))

/-! ## Sessions -/

theorem byteOf_supplyCode (x : SupplyState) : byteOf x.code = if x = .low then 1 else 0 := by
  cases x <;> rfl

theorem State.restartLease_eq (s : State) (p : Port) :
    s.restartLease p = if (s.session p).isOpen then s.leaseRenewed p else s := rfl

/-- What STATUS shows does not depend on the lease. -/
theorem State.statusBytes_leaseRenewed (s : State) (p : Port) :
    (s.leaseRenewed p).statusBytes p = s.statusBytes p := by
  simp [State.statusBytes, State.leaseRenewed_session]

/-- Settles O8: STATUS passes every gate but that of RESET, and both only answer. -/
theorem statusAndNopAnswer : Obligations.StatusAndNopAnswer := by
  refine ⟨fun p tag s hasks hr => ?_, fun p tag s hasks hadmits => ?_⟩
  · have hstatus : (s.restartLease p).statusBytes p = s.statusBytes p := by
      rw [State.restartLease_eq]
      split
      · exact s.statusBytes_leaseRenewed p
      · rfl
    have hserve : s.serve p .status (statusOwner p)
        = (s.restartLease p).respond p tag (replyOk (s.statusBytes p)) := by
      rw [State.serve_passed _ hasks hr rfl, ← hstatus]
      rfl
    show Host.Outcome.next (s.serve p .status (statusOwner p)) = _
    rw [hserve, State.restartLease_eq, State.statusBytes, byteOf_supplyCode]
    rfl
  · exact congrArg _ (State.serve_admitted (owner := nopOwner) hasks hadmits rfl)

/-- Where every block has taken the port's session end, there is nothing to settle (log 12). -/
theorem State.settleEnds_none {s : State} {p : Port} (h : s.endsOf p = []) :
    s.settleEnds p = s := by
  simp [State.settleEnds, State.endEvents, State.endCursors, State.endStack, State.endStagingOf,
    State.endImageStore, State.endMaintenance, h]

/-- An OPEN that passes the gate and is refused by its checks (R133). -/
theorem State.serve_open_refused {s : State} {p : Port} {lease : Word} {tag : Byte} {st : Status}
    (h : s.asks p (.openSession lease) tag) (hr : s.part.state ≠ .reset)
    (hl : s.part.state ≠ .loading) (hst : s.openRefusal p lease = some st) :
    exec (.openSession p lease) s = .next
      ((if (s.session p).isOpen then s.leaseRenewed p else s).respond p tag (refuse st)) := by
  have hgate : s.gate p (.openSession lease) = none := by simp [State.gate, hl]
  have hrefusal : (s.restartLease p).openRefusal p lease = some st := by
    rw [← hst, State.restartLease_eq]
    split
    · simp [State.openRefusal]
    · rfl
  have howner : openOwner p lease (s.restartLease p) = refusing (s.restartLease p) st := by
    simp only [openOwner, hrefusal]
  show Host.Outcome.next (s.serve p _ (openOwner p lease)) = _
  rw [State.serve_passed _ h hr hgate, State.passGate, howner]
  rfl

/-- Settles O9: the checks of R133 in their order, and the OPEN of R134 behind them. -/
theorem openIsCheckedInOrder : Obligations.OpenIsCheckedInOrder := by
  intro p lease tag s hasks hr
  dsimp only
  split
  next hl =>
    show Host.Outcome.next (s.serve p _ (openOwner p lease)) = _
    rw [State.serve_refused _ hasks hr (State.gate_loading p (by simp) hl)]
  next hl =>
    split
    next hm =>
      exact State.serve_open_refused hasks hr hl (by rw [State.openRefusal, if_pos hm])
    next hm =>
      split
      next he =>
        exact State.serve_open_refused hasks hr hl
          (by rw [State.openRefusal, if_neg hm, if_pos he])
      next he =>
        split
        next hb =>
          exact State.serve_open_refused hasks hr hl
            (by rw [State.openRefusal, if_neg hm, if_neg he]; exact if_pos hb)
        next hb =>
          have hopen : s.openRefusal p lease
              = if (s.session p).isOpen = true then some .alreadyOpen else none := by
            rw [State.openRefusal, if_neg hm, if_neg he]; exact if_neg hb
          split
          next ho =>
            rw [State.serve_open_refused hasks hr hl (by rw [hopen, if_pos ho]), if_pos ho]
          next ho =>
            intro hends
            have hgate : s.gate p (.openSession lease) = none := by simp [State.gate, hl]
            have hclosed : (s.session p).isOpen = false := by simpa using ho
            have howner : openOwner p lease s = takeOpen p lease s := by
              simp only [openOwner, hopen, if_neg ho, State.settleEnds_none hends, if_neg hl]
            have hnumber : nextSession (s.session p).number
                = if (s.session p).number < 255 then (s.session p).number + 1 else 1 := by
              unfold nextSession
              split <;> split <;> omega
            show Host.Outcome.next (s.serve p _ (openOwner p lease)) = _
            rw [State.serve_passed _ hasks hr hgate, State.passGate,
              State.restartLease_closed hclosed, howner]
            simp only [takeOpen, answering, Session.opened, hnumber, bytesOfWord_ofNat_toNat]

/-- Settles O10: CLOSE is served to an open session, whose renewed lease its end stops; an expiry looks at
the turn of the request in progress. -/
theorem closeAndLeaseExpiryEndTheSession : Obligations.CloseAndLeaseExpiryEndTheSession := by
  intro p s
  dsimp only
  refine ⟨fun tag hasks hadmits => ?_, fun ho ht hturn => ?_, fun job hjob hne => ?_⟩
  · have howner : closeOwner p (s.leaseRenewed p)
        = ((s.endSession p .closed), some (replyOk [byteOf (s.session p).number])) := by
      have ho' : ((s.leaseRenewed p).session p).isOpen = true := by
        rw [State.leaseRenewed_isOpen]; exact hadmits.2.2
      rw [closeOwner, answering, State.endSession_open _ ho', State.endSession_open _ hadmits.2.2,
        State.leaseRenewed_session, State.leaseRenewed, State.setSession_setSession]
      rfl
    rw [← State.endSession_open _ hadmits.2.2]
    exact congrArg _ (State.serve_admitted hasks hadmits howner)
  · have hstart : s.turn p = .start := by
      unfold State.turn
      split
      next job hjob => exact hturn job hjob
      next => rfl
    show Host.Outcome.next (s.expireLease p) = _
    rw [State.expireLease, if_pos ⟨ht, hstart⟩, State.endSession_open _ ho]
  · show Host.Outcome.next (s.expireLease p) = _
    rw [State.expireLease, if_neg]
    rintro ⟨-, hstart⟩
    exact hne (by rwa [State.turn_of_inProgress hjob] at hstart)

/-! ## Events -/

/-- Settles O13: MASK and EVENTS act on their port's session and queue alone. -/
theorem maskAndEventsServe : Obligations.MaskAndEventsServe := by
  refine ⟨fun p m tag s hasks hadmits => ?_, fun p n tag s hasks hadmits => ⟨fun h1 h4 => ?_, fun h => ?_⟩,
    fun p s => ?_⟩
  · refine congrArg _ (State.serve_admitted (owner := maskOwner p m) hasks hadmits ?_)
    rw [maskOwner, answering, State.leaseRenewed_session, State.leaseRenewed,
      State.setSession_setSession]
  · refine congrArg _ (State.serve_admitted (owner := eventsOwner p n) hasks hadmits ?_)
    simp only [eventsOwner, eventCountOperand_val h1 h4, answering]
    obtain hle | hle := Nat.le_total n.toNat (s.queue p).entries.length
    · simp [boolByte, Nat.min_eq_left hle] <;> rfl
    · simp [boolByte, Nat.min_eq_right hle, List.take_of_length_le hle,
        List.drop_of_length_le hle] <;> rfl
  · refine congrArg _ (State.serve_admitted (owner := eventsOwner p n) hasks hadmits ?_)
    simp only [eventsOwner, eventCountOperand_none h, refusing]
  · simp [State.attention]

/-- Of a list with one matching entry the map that updates it rebuilds the rest. -/
theorem EventQueue.enter_coalesces {q : EventQueue} {e x : Event} {before after : List Event}
    (hq : q.entries = before ++ x :: after) (hx : e.coalescesWith x = true)
    (ho : ∀ y ∈ before ++ after, e.coalescesWith y = false) :
    q.enter e = { q with entries := before ++ x.update e :: after } := by
  have hany : q.entries.any e.coalescesWith = true := by
    rw [hq, List.any_eq_true]
    exact ⟨x, by simp, hx⟩
  have hkeep (l : List Event) (hl : ∀ y ∈ l, e.coalescesWith y = false) :
      l.map (fun x => if e.coalescesWith x then x.update e else x) = l := by
    conv_rhs => rw [← List.map_id l]
    exact List.map_congr_left fun y hy => by simp [hl y hy]
  rw [EventQueue.enter, if_pos hany, hq, List.map_append, List.map_cons,
    hkeep before fun y hy => ho y (List.mem_append_left _ hy),
    hkeep after fun y hy => ho y (List.mem_append_right _ hy), if_pos hx]

theorem EventQueue.enter_new {q : EventQueue} {e : Event}
    (h : ∀ x ∈ q.entries, e.coalescesWith x = false) :
    q.enter e = if q.entries.length < 8 then { q with entries := q.entries ++ [e] }
      else { q with overrun := true } := by
  have hany : ¬q.entries.any e.coalescesWith = true := by simpa using h
  rw [EventQueue.enter, if_neg hany]
  rfl

/-- When an event coalesces with an entry (R147). -/
theorem Event.coalescesWith_iff (e x : Event) : e.coalescesWith x = true ↔
    (e.kind = .newVersion ∧ x.kind = .newVersion ∧ x.table = e.table)
      ∨ (e.kind = .supply ∧ x.kind = .supply) := by
  cases hk : e.kind <;> simp [Event.coalescesWith, hk]

/-- An event that the session and its mask let through goes to the queue; any other is dropped. -/
theorem State.enterEvent_eq (s : State) (p : Port) (named : Option Nat) (e : Event) :
    s.enterEvent p named e =
      if ((s.session p).isOpen = true ∧ ∀ n, named = some n → n = (s.session p).number)
          ∧ (s.session p).mask.getLsbD (e.kind.code - 1) = true then
        s.setQueue p ((s.queue p).enter e)
      else s := by
  unfold State.enterEvent maskEnables
  refine if_congr ?_ rfl rfl
  cases named with
  | none => simp
  | some n => simp [and_assoc]

/-- Settles O14: the steps of R146 in their order. -/
theorem eventEntryTakesFiveSteps : Obligations.EventEntryTakesFiveSteps := by
  intro s p named e deliverable q matching
  have hmatch (x : Event) : ¬matching x ↔ e.coalescesWith x = false := by
    rw [← Bool.not_eq_true, Event.coalescesWith_iff]
  refine ⟨fun h => ?_, fun h => ?_, fun hd hm => ⟨fun before x after hq hx ho => ?_, fun hno hlen => ?_,
    fun hno hlen => ?_⟩⟩
  · rw [State.enterEvent_eq, if_neg fun hc => h hc.1]
  · rw [State.enterEvent_eq, if_neg fun hc => by rw [h] at hc; exact nomatch hc.2]
  · rw [State.enterEvent_eq, if_pos ⟨hd, hm⟩,
      EventQueue.enter_coalesces hq ((Event.coalescesWith_iff e x).mpr hx)
        fun y hy => (hmatch y).mp (ho y hy)]
    rfl
  · rw [State.enterEvent_eq, if_pos ⟨hd, hm⟩,
      EventQueue.enter_new fun x hx => (hmatch x).mp (hno x hx), if_pos hlen]
  · rw [State.enterEvent_eq, if_pos ⟨hd, hm⟩,
      EventQueue.enter_new fun x hx => (hmatch x).mp (hno x hx), if_neg (Nat.not_lt.mpr hlen)]

/-! ## The directory -/

theorem roleBlock_length (x : Option Version) : (roleBlock x).length = 10 := by
  unfold roleBlock
  split
  · split <;> simp [wordBytes_length, bytesOfWord]
  · rfl

/-- A list cut into pieces of known lengths gives each piece back. -/
theorem TableRecord.info_pieces (r : TableRecord) (t : TableId) :
    (r.info t).length = 40
      ∧ (r.info t).take 7 = [byteOf t.val, boolByte r.entry.defined, boolByte r.entry.persistent,
          portByte r.entry.writer, r.entry.readers.setWidth 8, byteOf r.entry.maxPages,
          r.loadResult.code]
      ∧ ((r.info t).drop 7).take 2 = wordBytes r.nextVersion
      ∧ ((r.info t).drop 9).take 10 = roleBlock r.current
      ∧ ((r.info t).drop 19).take 10 = roleBlock (r.staged.map (·.version))
      ∧ ((r.info t).drop 29).take 10 = roleBlock r.retiring
      ∧ (r.info t).drop 39 = [match r.staged with | some st => st.sub.code | none => 0] := by
  unfold TableRecord.info
  have hc := roleBlock_length r.current
  have hs := roleBlock_length (r.staged.map (·.version))
  have hr := roleBlock_length r.retiring
  have hn := wordBytes_length r.nextVersion
  generalize roleBlock r.current = bc at *
  generalize roleBlock (r.staged.map (·.version)) = bs at *
  generalize roleBlock r.retiring = br at *
  generalize wordBytes r.nextVersion = bn at *
  simp (disch := omega) [List.drop_append, List.take_append, List.drop_of_length_le, hc, hs, hr, hn]
    <;> rfl

/-- Settles O15: the record's bytes stand one behind the other, ten for each role. -/
theorem tableInfoReportsTheRecord : Obligations.TableInfoReportsTheRecord := by
  intro p table tag s hasks hadmits
  refine ⟨fun t ht => ?_, fun h => ?_⟩
  · intro r role
    obtain ⟨hlen, h7, hn, hc, hs, hr, hsub⟩ := r.info_pieces t
    have htable : byteOf t.val = table := by
      rw [← ht]; simp [byteOf]
    have hrole (x : Option Version) : roleBlock x = role x := by
      cases x <;> rfl
    refine ⟨?_, hlen, ?_, hn, ?_, ?_, ?_, hsub⟩
    · refine congrArg _ (State.serve_admitted (owner := tableInfoOwner table) hasks hadmits ?_)
      simp only [tableInfoOwner, tableOperand_val ht]
      rfl
    · rw [h7, htable]; rfl
    · rw [hc, hrole]
    · rw [hs, hrole]
    · rw [hr, hrole]
  · refine congrArg _ (State.serve_admitted (owner := tableInfoOwner table) hasks hadmits ?_)
    simp only [tableInfoOwner, tableOperand_none h]
    rfl

end Sys2Proof.Machine

namespace Sys2Proof.Machine

/-! ## Reports -/

theorem State.endReportedVisit_none {s : State} (h : s.scrub.visit = none) :
    s.endReportedVisit = s := by
  simp [State.endReportedVisit, h]

theorem State.endReportedVisit_some {s : State} {x : Visit} (h : s.scrub.visit = some x) :
    s.endReportedVisit = s.endVisit x.table := by
  simp [State.endReportedVisit, h]

theorem State.checkReport_scrub (s : State) (t : TableId) (n : Nat) :
    (s.checkReport t n).scrub = s.scrub :=
  (congrArg State.scrub (s.checkReport_frame t n)).trans rfl

/-- Settles O16: the version of that number is CURRENT, RETIRING or STAGED, or the report is discarded. -/
theorem parityReportsAreRecorded : Obligations.ParityReportsAreRecorded := by
  intro t n page s r taken ended marked told
  have hexec : exec (.parityReport t n page) s = .next (ended (taken.parityReport t n page)) := by
    have hscrub : (taken.parityReport t n page).scrub = s.scrub := State.parityReport_scrub ..
    show Host.Outcome.next (if _ then (taken.parityReport t n page).endReportedVisit else _)
      = .next (if _ then _ else _)
    cases hv : s.scrub.visit with
    | none => rw [State.endReportedVisit_none (by rw [hscrub, hv])]; rfl
    | some x => rw [State.endReportedVisit_some (x := x) (by rw [hscrub, hv])]; rfl
  rw [hexec]
  refine ⟨fun v hv hn => ?_, fun v hc hv hn => ?_, fun st hc hr hs hn => ?_, fun hc hr hs => ?_⟩
  · rw [State.parityReport_current (s := taken) page hv hn]
    rfl
  · rw [State.parityReport_retiring (s := taken) page hc hv hn]
    rfl
  · rw [State.parityReport_staged (s := taken) page hc hr hs hn]
    rfl
  · rw [State.parityReport_absent (s := taken) page hc hr hs]

/-- Settles O17: only the CURRENT version of that number is marked, and only once. -/
theorem checkReportsAreRecorded : Obligations.CheckReportsAreRecorded := by
  intro t n s r taken ended
  have hexec : exec (.checkReport t n) s = .next (ended (taken.checkReport t n)) := by
    have hscrub : (taken.checkReport t n).scrub = s.scrub := State.checkReport_scrub ..
    show Host.Outcome.next (if _ then (taken.checkReport t n).endReportedVisit else _)
      = .next (if _ then _ else _)
    cases hv : s.scrub.visit with
    | none => rw [State.endReportedVisit_none (by rw [hscrub, hv])]; rfl
    | some x => rw [State.endReportedVisit_some (x := x) (by rw [hscrub, hv])]; rfl
  rw [hexec]
  refine ⟨fun v hv hn hd => ?_, fun h => ?_⟩
  · rw [State.checkReport_current (s := taken) hv hn hd]
    rfl
  · rw [State.checkReport_absent (s := taken) h]

/-! ## Versions that leave their table -/

theorem TableRecord.stagedHeld_iff (r : TableRecord) :
    r.stagedHeld = true ↔ ∃ st limit, r.staged = some st ∧ st.sub = .held limit := by
  unfold TableRecord.stagedHeld
  cases r.staged with
  | none => simp
  | some st => cases h : st.sub <;> simp [h]

/-- Settles O18: the count falls by one, and the RETIRING version's at 0 retires it. -/
theorem unpinRetiresAtCountZero : Obligations.UnpinRetiresAtCountZero := by
  intro s t n r
  refine ⟨fun v hv hn => State.unpin_current hv hn, fun w hc hw hn => ⟨fun hp => ?_, fun hp => ?_⟩⟩
  · rw [State.unpin_retiring hc hw hn, if_neg (by simp only [Version.unpin]; omega)]
    rfl
  · intro freed told
    have hunpin : s.unpin t n
        = if r.stagedHeld then { told with notices := told.notices ++ [t] } else told := by
      rw [State.unpin_retiring hc hw hn, if_pos (by simp only [Version.unpin]; omega),
        State.retire_some (v := w.unpin) (by rw [State.table_setTable_self])]
      have hfreed : ((s.setTable t { r with retiring := some w.unpin }).releasePages w.pages
          w.faulty).setTable t { r with retiring := none } = freed := by
        show (s.setTable t _ |>.setTable t _).releasePages _ _ = _
        rw [State.setTable_setTable]
        rfl
      simp only [State.table_setTable_self]
      rw [show w.unpin.pages = w.pages from rfl, show w.unpin.faulty = w.faulty from rfl, hfreed]
      subst hn
      rfl
    refine ⟨fun st limit hst hsub => ?_, fun h => ?_⟩
    · rw [hunpin, if_pos (r.stagedHeld_iff.mpr ⟨st, limit, hst, hsub⟩)]
    · rw [hunpin, if_neg]
      rintro hheld
      obtain ⟨st, limit, hst, hsub⟩ := r.stagedHeld_iff.mp hheld
      exact h st limit hst hsub

/-! ## Pages -/

/-- The faulty pages of a release, as the rule names them: in logical order, those whose logical index is
in the faulty set (R12). -/
theorem faultyPages_eq (pages faulty : List Nat) :
    faultyPages pages faulty
      = (List.range pages.length).filterMap (fun i => if i ∈ faulty then pages[i]? else none) := by
  unfold faultyPages
  have hzip : pages.zipIdx = (List.range pages.length).filterMap
      (fun i => pages[i]?.map fun x => (x, i)) := by
    induction pages using List.reverseRecOn with
    | nil => rfl
    | append_singleton l x ih =>
      rw [List.zipIdx_append, ih, List.length_append, List.length_singleton, List.range_succ,
        List.filterMap_append]
      congr 1
      · refine List.filterMap_congr fun i hi => ?_
        rw [List.getElem?_append_left (List.mem_range.mp hi)]
      · simp
  rw [hzip, List.filter_filterMap, List.map_filterMap]
  refine List.filterMap_congr fun i hi => ?_
  by_cases hf : i ∈ faulty <;> cases h : pages[i]? <;> simp [hf]

theorem State.releasePages_freePool (s : State) (pages faulty : List Nat) :
    (s.releasePages pages faulty).freePool
      = (soundPages pages faulty).foldl (fun pool x => insertSorted x pool) s.freePool := rfl

/-- Settles O19: the two collections gain exactly the version's pages. -/
theorem pagesMoveWhole : Obligations.PagesMoveWhole := by
  refine ⟨fun s pages faulty => ?_, fun s n => ⟨fun h => if_pos h, fun h => if_neg (by omega)⟩⟩
  intro t
  refine ⟨rfl, ?_, fun hpool hnodup => ?_⟩
  · rw [← faultyPages_eq]; rfl
  · have hsound : (s.freePool ++ soundPages pages faulty).Nodup :=
      hnodup.sublist ((List.Sublist.refl _).append (soundPages_sublist pages faulty))
    obtain ⟨hperm, hasc⟩ := foldl_insertSorted (soundPages pages faulty) s.freePool hsound
    rw [← soundPages_eq]
    exact ⟨hasc hpool, hperm⟩

/-- Settles O20: the three forms of the CURRENT version before the swap. -/
theorem swapReplacesTheCurrentVersion : Obligations.SwapReplacesTheCurrentVersion := by
  intro s t st hst hret r swapped
  simp only [State.swap, swapped, r, hst, hret]
  rfl

/-! ## Steps of an offset -/

/-- Settles O25: a LINEAR step ends at END off either edge; a PAGE step is a residue of the span. -/
theorem linearAndPageStepsStayInBounds : Obligations.LinearAndPageStepsStayInBounds := by
  intro offset stride length h
  refine ⟨fun h0 h1 => ?_, fun h0 => ?_, ?_⟩
  · simp only [Mode.step, linearStep, if_pos (And.intro h0 h1), Int.toNat_of_nonneg h0]
  · simp only [Mode.step, linearStep]
    rw [if_neg (by omega)]
  · intro base span
    have hstep : Mode.step .page offset stride length
        = base + (((offset : Int) - base + stride) % (span : Int)).toNat := rfl
    have hspan : 0 < (span : Int) := by omega
    have hnonneg := Int.emod_nonneg ((offset : Int) - base + stride) (ne_of_gt hspan)
    have hlt := Int.emod_lt_of_pos ((offset : Int) - base + stride) hspan
    generalize ((offset : Int) - base + stride) % (span : Int) = m at *
    rw [hstep]
    refine ⟨by push_cast; omega, ?_, by omega⟩
    omega

/-! ## The supply -/

/-- A port without an open session gets no event (R146). -/
theorem State.enterEvents_queue_closed {p : Port} (ports : List Port) (e : Event) {s : State}
    (h : (s.session p).isOpen = false) : (s.enterEvents ports e).queue p = s.queue p := by
  unfold State.enterEvents
  induction ports generalizing s with
  | nil => rfl
  | cons q qs ih =>
    rw [List.foldl_cons, ih (by rw [State.enterEvent_session]; exact h)]
    by_cases hq : p = q
    · subst hq
      rw [State.enterEvent_eq, if_neg (by simp [h])]
    · exact State.enterEvent_queue_other s _ e hq

/-- Settles O50: a change is told to every port, and a port without a session hears nothing. -/
theorem supplyChangesAreTold : Obligations.SupplyChangesAreTold := by
  intro s told
  refine ⟨fun h => ?_, fun h => ?_, fun x extra p hc => ?_⟩
  · show Host.Outcome.next (s.changeSupply .low) = _
    rw [State.changeSupply, if_neg (by rw [h]; decide)]
    rfl
  · show Host.Outcome.next (s.changeSupply .ok) = _
    rw [State.changeSupply, if_neg (by rw [h]; decide)]
    rfl
  · exact State.enterEvents_queue_closed (s := { s with supply := x }) _ _ hc

/-! ## Maintenance begins -/

theorem State.otherSessionOpen_iff (s : State) (p : Port) :
    s.otherSessionOpen p = true ↔ ∃ q, q ≠ p ∧ (s.session q).isOpen = true := by
  simp [State.otherSessionOpen, mem_allPorts]

theorem State.anyStaged_iff (s : State) :
    s.anyStaged = true ↔ ∃ t, (s.table t).staged.isSome = true := by
  simp [State.anyStaged, allTables]

/-- Settles O51: the checks of R161 in their order, and R110 where no report is on its way. -/
theorem maintEnterTakesTheCharter : Obligations.MaintEnterTakesTheCharter := by
  intro p tag s hasks hadmits refused
  have hserve {u : State} {reply : Reply}
      (h : maintEnterOwner p (s.leaseRenewed p) = (u, some reply)) :
      exec (.maintEnter p) s = .next (u.respond p tag reply) :=
    congrArg _ (State.serve_admitted hasks hadmits h)
  have hopen : (s.leaseRenewed p).otherSessionOpen p = s.otherSessionOpen p := by
    rw [Bool.eq_iff_iff, State.otherSessionOpen_iff, State.otherSessionOpen_iff]
    simp
  have hstaged : (s.leaseRenewed p).anyStaged = s.anyStaged := rfl
  unfold maintEnterOwner at hserve
  rw [hopen, hstaged] at hserve
  simp only [← State.otherSessionOpen_iff, ← State.anyStaged_iff]
  split
  next hm => exact hserve (by rw [if_pos (by exact hm)]; rfl)
  next hm =>
  rw [if_neg (by exact hm)] at hserve
  split
  next hr => exact hserve (by rw [if_pos (by exact hr)]; rfl)
  next hr =>
  rw [if_neg (by exact hr)] at hserve
  split
  next ho => exact hserve (by rw [if_pos ho]; rfl)
  next ho =>
  rw [if_neg ho] at hserve
  split
  next hq => exact hserve (by rw [if_pos (by exact hq)]; rfl)
  next hq =>
  rw [if_neg (by exact hq)] at hserve
  split
  next hs => exact hserve (by rw [if_pos hs]; rfl)
  next hs =>
  rw [if_neg hs] at hserve
  intro hreports
  refine hserve ?_
  have htaken : (s.leaseRenewed p).takeReports = s.leaseRenewed p := by
    have hnil : (s.leaseRenewed p).reports = [] := hreports
    rw [State.takeReports, hnil]
    rfl
  rw [answering, State.enterMaintenance, htaken]
  rfl

end Sys2Proof.Machine

namespace Sys2Proof.Machine

/-! ## Charter requests -/

theorem entryOperand_table {b : Byte} {t : TableId} (h : b.toNat = t.val) :
    entryOperand b = some (.table t) := by
  unfold entryOperand
  rw [dif_pos (by omega)]
  simp [h]

theorem entryOperand_port {b : Byte} {q : Port} (h : b.toNat = 32 + q.val) :
    entryOperand b = some (.port q) := by
  unfold entryOperand
  rw [dif_neg (by omega), dif_pos (by omega)]
  simp [h]

theorem entryOperand_part {b : Byte} (h : b.toNat = 36) : entryOperand b = some .part := by
  simp [entryOperand, h]

theorem entryOperand_none {b : Byte} (h : 36 < b.toNat) : entryOperand b = none := by
  unfold entryOperand
  rw [dif_neg (by omega), dif_neg (by omega), if_neg (by omega)]

/-- A charter request of the maintenance session works on the working copy (R162). -/
theorem withWorkingCopy_maintains {s : State} {p : Port} {c : Charter} (h : s.maintains p c)
    (work : Charter → State → State × Option Reply) :
    withWorkingCopy p work (s.leaseRenewed p) = work c (s.leaseRenewed p) := by
  obtain ⟨hm, hp, hc⟩ := h
  simp [withWorkingCopy, hm, hp, hc]

theorem withWorkingCopy_outside {s : State} (p : Port) (h : s.part.state ≠ .maintenance)
    (work : Charter → State → State × Option Reply) :
    withWorkingCopy p work s = refusing s .denied := by
  simp [withWorkingCopy, h]

theorem Charter.maintainable_eq_false_iff (c : Charter) : c.maintainable = false ↔
    ∀ q : Port, (c.ports[q]).enabled = false ∨ (c.ports[q]).maintenance = false := by
  simp [Charter.maintainable, List.any_eq_false, mem_allPorts, Classical.or_iff_not_imp_left]

/-- The field bytes of the entry replaced, by the forms of R163. -/
theorem Charter.replaceEntry_none {c : Charter} {entry f0 f1 f2 f3 f4 : Byte} {name : EntryName}
    (h : entry.toNat < 32 ∧ tableEntryOperand f0 f1 f2 f3 f4 = none
      ∨ 32 ≤ entry.toNat ∧ entry.toNat < 36 ∧ portEntryOperand f0 f1 f2 f3 = none)
    (hn : entryOperand entry = some name) : c.replaceEntry name f0 f1 f2 f3 f4 = none := by
  rcases h with ⟨hlt, hnone⟩ | ⟨hle, hlt, hnone⟩
  · rw [entryOperand_table (t := ⟨entry.toNat, hlt⟩) rfl] at hn
    cases hn
    simp [Charter.replaceEntry, hnone]
  · rw [entryOperand_port (q := ⟨entry.toNat - 32, by omega⟩) (by simp; omega)] at hn
    cases hn
    simp [Charter.replaceEntry, hnone]

/-- Settles O52: the working copy is read, written entry by entry, and handed to the image store. -/
theorem charterRequestsUseTheWorkingCopy : Obligations.CharterRequestsUseTheWorkingCopy := by
  intro p tag c s hadmits renewed refused
  refine ⟨fun hm => ⟨fun entry hasks => ⟨fun name hname => ?_, fun h => ?_⟩,
    fun entry f0 f1 f2 f3 f4 hasks => ?_, fun hasks => ?_⟩, fun i r hi hasks hout hcode => ?_⟩
  · refine congrArg _ (State.serve_admitted (owner := charterReadOwner p entry) hasks hadmits ?_)
    rw [charterReadOwner, withWorkingCopy_maintains hm]
    simp only [hname, answering]
    cases name <;> rfl
  · refine congrArg _ (State.serve_admitted (owner := charterReadOwner p entry) hasks hadmits ?_)
    rw [charterReadOwner, withWorkingCopy_maintains hm]
    simp only [entryOperand_none h]
    rfl
  · intro written
    have hserve {name : EntryName} {d : Charter} (hname : entryOperand entry = some name)
        (hd : c.replaceEntry name f0 f1 f2 f3 f4 = some d) : written d := by
      refine congrArg _ (State.serve_admitted (owner := charterWriteOwner p entry f0 f1 f2 f3 f4)
        hasks hadmits ?_)
      rw [charterWriteOwner, withWorkingCopy_maintains hm]
      simp only [hname, hd]
      rfl
    have hrange (h : ∀ name, entryOperand entry = some name →
        c.replaceEntry name f0 f1 f2 f3 f4 = none) :
        refused (.charterWrite p entry f0 f1 f2 f3 f4) .range := by
      refine congrArg _ (State.serve_admitted (owner := charterWriteOwner p entry f0 f1 f2 f3 f4)
        hasks hadmits ?_)
      rw [charterWriteOwner, withWorkingCopy_maintains hm]
      cases hname : entryOperand entry with
      | none => rfl
      | some name => simp only [h name hname]; rfl
    refine ⟨fun t e ht he => ?_, fun q e hq he => ?_, fun h => ?_, fun h => hrange fun name hn => ?_⟩
    · exact hserve (entryOperand_table ht) (by simp [Charter.replaceEntry, he])
    · exact hserve (entryOperand_port hq) (by simp [Charter.replaceEntry, he])
    · exact hserve (entryOperand_part h) rfl
    · rcases h with h | h
      · rw [entryOperand_none h] at hn
        cases hn
      · exact Charter.replaceEntry_none h hn
  · have hserve {u : State} {reply : Reply}
        (h : charterCommitOwner p (s.leaseRenewed p) = (u, some reply)) :
        exec (.charterCommit p) s = .next (u.respond p tag reply) :=
      congrArg _ (State.serve_admitted hasks hadmits h)
    rw [charterCommitOwner, withWorkingCopy_maintains hm] at hserve
    simp only [← Charter.maintainable_eq_false_iff]
    split
    next hq => exact hserve (by rw [if_pos (by exact hq)]; rfl)
    next hq =>
    rw [if_neg (by exact hq)] at hserve
    split
    next hl => exact hserve (by rw [if_pos (by exact hl)]; rfl)
    next hl =>
    rw [if_neg (by exact hl)] at hserve
    split
    next hr => exact hserve (by rw [if_pos hr]; rfl)
    next hr =>
    rw [if_neg hr] at hserve
    refine hserve ?_
    rw [State.leaseRenewed_session]
    rfl
  · have hdenied {owner : Owner} (work : Charter → State → State × Option Reply)
        (h : owner = withWorkingCopy p work) :
        s.serve p r owner = renewed.respond p tag (refuse .denied) := by
      refine State.serve_admitted hasks hadmits ?_
      rw [h, withWorkingCopy_outside p (by exact hout)]
      rfl
    cases i with
    | charterRead q entry => cases hi; exact congrArg _ (hdenied _ rfl)
    | charterWrite q entry f0 f1 f2 f3 f4 => cases hi; exact congrArg _ (hdenied _ rfl)
    | charterCommit q => cases hi; exact congrArg _ (hdenied _ rfl)
    | maintExit q => cases hi; exact congrArg _ (hdenied _ rfl)
    | _ => cases hi <;> exact absurd hcode (by simp [Request.code])

end Sys2Proof.Machine

namespace Sys2Proof.Machine

/-! ## Operands out of range, and those in range -/

theorem slotOperand_none {b : Byte} (h : 3 < b.toNat) : slotOperand b = none := by
  simp [slotOperand, Nat.not_lt.mpr h]

theorem offsetOperand_none {w : Word} (h : 4095 < w.toNat) : offsetOperand w = none := by
  simp [offsetOperand, h]

theorem modeOperand_none {b : Byte} (h : 2 < b.toNat) : modeOperand b = none := by
  revert b; decide

theorem modeOperand_some {b : Byte} (h : b.toNat ≤ 2) : ∃ m, modeOperand b = some m := by
  have hsome : ∀ b : Byte, b.toNat ≤ 2 → (modeOperand b).isSome = true := by decide
  exact Option.isSome_iff_exists.mp (hsome b h)

theorem strideOperand_none {b : Byte} (h : b.toInt < -16 ∨ 16 < b.toInt ∨ b.toInt = 0) :
    strideOperand b = none := by
  unfold strideOperand
  rw [if_neg (by omega)]

theorem yesNoOperand_none {b : Byte} (h : 1 < b.toNat) : yesNoOperand b = none := by
  revert b; decide

theorem yesNoOperand_some {b : Byte} (h : b.toNat ≤ 1) : ∃ f, yesNoOperand b = some f := by
  revert b; decide

theorem yesNoOperand_ite (f : Bool) : yesNoOperand (if f then 1 else 0) = some f := by
  cases f <;> rfl

/-! ## BIND -/

theorem exec_bind_eq_bindTurn (p : Port) (slot table : Byte) (offset : Word)
    (mode stride follow : Byte) (s : State) : exec (.bind p slot table offset mode stride follow) s
      = .next (s.bindTurn p (.bind slot table offset mode stride follow)
        (bindOwner p slot table offset mode stride follow)) := rfl

/-- A BIND not begun is in progress at its start or held, and is served as every request is. -/
theorem State.bindTurn_unbegun {s : State} {p : Port} {req : Request} {tag : Byte} (owner : Owner)
    (h : s.asksUnbegun p req tag) : s.bindTurn p req owner = s.serve p req owner := by
  refine State.bindTurn_eq_serve _ _ fun c new length damaged ht => ?_
  rcases h with h | h <;>
  · rw [State.turn_asks h] at ht
    cases ht

theorem State.asksUnbegun_turn {s : State} {p : Port} {req : Request} {tag : Byte}
    (h : s.asksUnbegun p req tag) : ∃ turn, s.asksAt p req tag turn := by
  rcases h with h | h
  · exact ⟨_, h⟩
  · exact ⟨_, h⟩

/-- A BIND that stands at its pin goes on without the gate (log 35). -/
theorem State.bindTurn_pinned {s : State} {p : Port} {req : Request} {tag : Byte} {owner : Owner}
    {c : SlotId} {new : Binding} {length : Nat} {damaged : Bool} (hr : s.part.state ≠ .reset)
    (h : s.asksAt p req tag (.pinned c new length damaged)) :
    s.bindTurn p req owner = (s.bindPinned p c new length damaged).1.respond p tag
      (s.bindPinned p c new length damaged).2 := by
  unfold State.bindTurn
  rw [State.requestTag_asks h hr, State.turn_asks h]

theorem State.bindPinned_in {s : State} {p : Port} {new : Binding} {length : Nat} (c : SlotId)
    (damaged : Bool) (h : new.offset < length) (ho : (s.session p).isOpen = true) :
    s.bindPinned p c new length damaged = ((s.setCursor p c (some new)).unpinOld (s.cursor p c),
      replyOk (wordBytes new.version ++ wordBytes length) { damaged := damaged }) := by
  rw [State.bindPinned, if_neg (Nat.not_le.mpr h), if_pos ho]

theorem State.bindPinned_out {s : State} {new : Binding} {length : Nat} (p : Port) (c : SlotId)
    (damaged : Bool) (h : length ≤ new.offset) :
    s.bindPinned p c new length damaged = (s.unpin new.table new.version, refuse .range) := by
  rw [State.bindPinned, if_pos h]

theorem State.unpinOld_setTurn (s : State) (p : Port) (turn : Turn) (x : Context) :
    (s.setTurn p turn).unpinOld x = (s.unpinOld x).setTurn p turn := by
  cases x with
  | none => rfl
  | some b => exact s.unpin_setTurn p turn _ _

/-- A pin on the CURRENT version and its unpin leave the record as it was. -/
theorem State.unpin_setTable_pinned {s : State} {t : TableId} {v : Version}
    (hv : (s.table t).current = some v) :
    (s.setTable t { s.table t with current := some v.pin }).unpin t v.number = s := by
  rw [State.unpin_current (v := v.pin) (n := v.number) (by rw [State.table_setTable_self]) rfl,
    State.setTable_setTable, State.table_setTable_self]
  have hpin : v.pin.unpin = v := rfl
  have hrecord : ({ s.table t with current := some v.pin.unpin } : TableRecord) = s.table t := by
    rw [hpin, ← hv]
  exact (congrArg _ hrecord).trans (State.setTable_same s t)

theorem State.asksAt_setTurn {s : State} {p : Port} {req : Request} {tag : Byte} {turn : Turn}
    (h : s.asksAt p req tag turn) (turn1 : Turn) : (s.setTurn p turn1).asksAt p req tag turn1 := by
  simp [State.asksAt, State.setTurn, h]

section
variable {s : State} {p : Port} {slot table : Byte} {offset : Word} {mode stride follow : Byte}
  {c : SlotId} {t : TableId} {m : Mode} {f : Bool} {v : Version}

theorem bindOwner_eq_bindTable {o : Nat} {d : Int} (hm : s.part.state ≠ .maintenance)
    (hc : slotOperand slot = some c) (ht : tableOperand table = some t)
    (ho : offsetOperand offset = some o) (hmode : modeOperand mode = some m)
    (hd : strideOperand stride = some d) (hf : yesNoOperand follow = some f) :
    bindOwner p slot table offset mode stride follow s = bindTable p c t o m d f s := by
  simp only [bindOwner, outsideMaintenance_out _ hm, hc, ht, ho, hmode, hd, hf]

theorem bindOwner_range (hm : s.part.state ≠ .maintenance)
    (h : 3 < slot.toNat ∨ 31 < table.toNat ∨ 4095 < offset.toNat ∨ 2 < mode.toNat
      ∨ stride.toInt < -16 ∨ 16 < stride.toInt ∨ stride.toInt = 0 ∨ 1 < follow.toNat) :
    bindOwner p slot table offset mode stride follow s = refusing s .range := by
  simp only [bindOwner, outsideMaintenance_out _ hm]
  split
  next hc ht ho hmode hd hf =>
    rcases h with h | h | h | h | h | h | h | h
    · rw [slotOperand_none h] at hc; cases hc
    · rw [tableOperand_none h] at ht; cases ht
    · rw [offsetOperand_none h] at ho; cases ho
    · rw [modeOperand_none h] at hmode; cases hmode
    · rw [strideOperand_none (.inl h)] at hd; cases hd
    · rw [strideOperand_none (.inr (.inl h))] at hd; cases hd
    · rw [strideOperand_none (.inr (.inr h))] at hd; cases hd
    · rw [yesNoOperand_none h] at hf; cases hf
  next => rfl

theorem State.pinCurrent_some (hv : (s.table t).current = some v) :
    s.pinCurrent t = some (v, s.setTable t { s.table t with current := some v.pin }) := by
  simp [State.pinCurrent, hv]

/-- Past the checks of R43, BIND stands at its pin or waits for another that does (R28, R44, log 37). -/
theorem bindTable_current {o : Nat} {d : Int} (hdef : (s.table t).entry.defined = true)
    (ha : p ∈ (s.table t).entry.audience) (hv : (s.table t).current = some v) :
    bindTable p c t o m d f s =
      if s.bindStands t v.number then (s.setTurn p .held, none)
      else ((s.setTable t { s.table t with current := some v.pin }).setTurn p
        (.pinned c { table := t, version := v.number, offset := o, mode := m, stride := d, follow := f }
          v.length v.damaged), none) := by
  simp [bindTable, hdef, ha, State.pinCurrent_some hv]

end

/-- Settles O21: the checks and the pin, what follows the pin wherever the BIND stands at it, and the
refusals. -/
theorem bindPinsTheCurrentVersion : Obligations.BindPinsTheCurrentVersion := by
  refine ⟨?pins, ?follows, ?refuses⟩
  case pins =>
    rintro p slot table offset mode stride follow tag s c t m f v hasks ⟨hadmits, hm⟩ hslot htable
      hoffset rfl hd1 hd2 hd0 rfl hdef hright hv new counted pinned standing
    obtain ⟨turn, hturn⟩ := State.asksUnbegun_turn hasks
    have haudience : p ∈ (s.table t).entry.audience :=
      (TableEntry.mem_audience _ p).mpr hright.symm
    have howner : bindOwner p slot table offset m.code stride (if f then 1 else 0) (s.leaseRenewed p)
        = if s.bindStands t v.number then ((s.leaseRenewed p).setTurn p .held, none)
          else (pinned, none) := by
      rw [bindOwner_eq_bindTable (s := s.leaseRenewed p) hm (slotOperand_val hslot) (tableOperand_val htable)
        (offsetOperand_val hoffset) (modeOperand_code m) (strideOperand_val hd1 hd2 hd0)
        (yesNoOperand_ite f)]
      exact bindTable_current (s := s.leaseRenewed p) hdef haudience hv
    have hstands : s.bindStands t v.number = true ↔ standing := s.bindStands_iff t v.number
    have hpinned : pinned.asksAt p (.bind slot table offset m.code stride (if f then 1 else 0)) tag
        (.pinned c new v.length (decide (v.damage ≠ Damage.clear))) :=
      State.asksAt_setTurn (s := counted) hturn _
    have hgoes : exec (.bind p slot table offset m.code stride (if f then 1 else 0)) pinned
        = .next ((pinned.bindPinned p c new v.length (decide (v.damage ≠ Damage.clear))).1.respond p
          tag (pinned.bindPinned p c new v.length (decide (v.damage ≠ Damage.clear))).2) := by
      rw [exec_bind_eq_bindTurn, State.bindTurn_pinned (s := pinned) hadmits.1 hpinned]
    have hopen : (pinned.session p).isOpen = true :=
      (State.leaseRenewed_isOpen s p p).trans hadmits.2.2
    refine ⟨fun h => ?_, fun h => ?_, fun hin => ?_, fun hout => ?_⟩
    · rw [exec_bind_eq_bindTurn, State.bindTurn_unbegun _ hasks,
        State.serve_waits hturn hadmits (howner.trans (if_pos (hstands.mpr h)))]
    · rw [exec_bind_eq_bindTurn, State.bindTurn_unbegun _ hasks,
        State.serve_waits hturn hadmits (howner.trans (if_neg fun hs => h (hstands.mp hs)))]
    · intro bound
      rw [hgoes, State.bindPinned_in c _ hin hopen]
      have hcursor : pinned.cursor p c = s.cursor p c := rfl
      have hbound : pinned.setCursor p c (some new) = bound.setTurn p
          (.pinned c new v.length (decide (v.damage ≠ Damage.clear))) := rfl
      rw [hcursor, hbound, State.unpinOld_setTurn, State.respond_setTurn]
      cases s.cursor p c <;> rfl
    · rw [hgoes, State.bindPinned_out p c _ hout]
      have hback : counted.unpin t v.number = s.leaseRenewed p :=
        State.unpin_setTable_pinned (s := s.leaseRenewed p) hv
      show Host.Outcome.next ((pinned.unpin t v.number).respond p tag _) = _
      rw [State.unpin_setTurn, State.respond_setTurn, hback]
  case follows =>
    intro p slot table offset mode stride follow tag s c new length damaged hr hasks
    rw [exec_bind_eq_bindTurn, State.bindTurn_pinned hr hasks]
    refine ⟨fun hin ho => ?_, fun hout => ?_⟩
    · intro bound
      rw [State.bindPinned_in c damaged hin ho]
      cases s.cursor p c <;> rfl
    · rw [State.bindPinned_out p c damaged hout]
  case refuses =>
    rintro p slot table offset mode stride follow tag s hasks ⟨hadmits, hm⟩ refused outOfRange
    obtain ⟨turn, hturn⟩ := State.asksUnbegun_turn hasks
    have hrefused {st : Status} (h : bindOwner p slot table offset mode stride follow
        (s.leaseRenewed p) = refusing (s.leaseRenewed p) st) : refused st := by
      show exec _ s = _
      rw [exec_bind_eq_bindTurn, State.bindTurn_unbegun _ hasks, State.serve_admitted hturn hadmits h]
    refine ⟨fun h => hrefused (bindOwner_range hm h), fun t hin htable => ?_⟩
    intro e
    obtain ⟨c, hc⟩ : ∃ c : SlotId, slot.toNat = c.val := ⟨⟨slot.toNat, by omega⟩, rfl⟩
    obtain ⟨m, hmode⟩ := modeOperand_some (b := mode) (by omega)
    obtain ⟨f, hf⟩ := yesNoOperand_some (b := follow) (by omega)
    have howner : bindOwner p slot table offset mode stride follow (s.leaseRenewed p)
        = bindTable p c t offset.toNat m stride.toInt f (s.leaseRenewed p) :=
      bindOwner_eq_bindTable hm (slotOperand_val hc) (tableOperand_val htable)
        (offsetOperand_val (by omega)) hmode
        (strideOperand_val (by omega) (by omega) (by omega)) hf
    have htab : (s.leaseRenewed p).table t = s.table t := rfl
    refine ⟨fun hd => ?_, fun hd hw hr => ?_, fun hd hright hcur => ?_⟩ <;> refine hrefused ?_
    · rw [howner, bindTable, htab, if_pos hd]
    · have haudience : p ∉ e.audience := by
        rw [TableEntry.mem_audience, hr]
        simp [hw]
      rw [howner, bindTable, htab, if_neg (by simp [e] at hd; simp [hd]), if_pos haudience]
    · have haudience : p ∈ e.audience := (TableEntry.mem_audience e p).mpr hright.symm
      rw [howner, bindTable, htab, if_neg (by simp [e] at hd; simp [hd]),
        if_neg (not_not.mpr haudience)]
      have hpin : (s.leaseRenewed p).pinCurrent t = none := by
        simp [State.pinCurrent, hcur]
      rw [hpin]

end Sys2Proof.Machine

namespace Sys2Proof.Machine

/-! ## CURSOR_INFO -/

section
variable {s : State} {p : Port} {slot : Byte} {c : SlotId}

theorem cursorInfoOwner_unbound (hm : s.part.state ≠ .maintenance) (hslot : slot.toNat = c.val)
    (hb : s.cursor p c = none) : cursorInfoOwner p slot s = answering s (replyOk unboundInfo) := by
  simp only [cursorInfoOwner, outsideMaintenance_out _ hm, slotOperand_val hslot, hb]

theorem cursorInfoOwner_bound {b : Binding} {v : Version} {isCurrent : Bool}
    (hm : s.part.state ≠ .maintenance) (hslot : slot.toNat = c.val) (hb : s.cursor p c = some b)
    (hl : s.lookup b.table b.version = some (v, isCurrent)) :
    cursorInfoOwner p slot s = answering s (replyOk (b.info v.length)
      { endReached := b.atEnd v.length, stale := !isCurrent, damaged := v.damaged }) := by
  simp only [cursorInfoOwner, outsideMaintenance_out _ hm, slotOperand_val hslot, hb, hl]

theorem Binding.atEnd_eq_decide (b : Binding) (length : Nat) :
    b.atEnd length = decide (b.mode = .linear ∧ b.offset = length) := by
  simp [Binding.atEnd]

end

/-- Settles O30: an unbound slot, and a bound one by the version the lookup finds. -/
theorem cursorInfoReportsTheSlot : Obligations.CursorInfoReportsTheSlot := by
  rintro p slot tag c s hasks ⟨hadmits, hm⟩ hslot
  refine ⟨fun hb => ?_, fun b v isCurrent hb hl => ?_⟩
  · exact congrArg _ (State.serve_admitted hasks hadmits
      (cursorInfoOwner_unbound (s := s.leaseRenewed p) hm hslot hb))
  · rw [← Binding.atEnd_eq_decide]
    exact congrArg _ (State.serve_admitted hasks hadmits
      (cursorInfoOwner_bound (s := s.leaseRenewed p) hm hslot hb hl))

/-! ## SAVE and RESTORE -/

section
variable {s : State} {p : Port} {slot : Byte} {c : SlotId}

theorem State.pinNamed_current {t : TableId} {n : Nat} {v : Version}
    (hv : (s.table t).current = some v) (hn : v.number = n) :
    s.pinNamed t n = s.setTable t { s.table t with current := some v.pin } := by
  simp only [State.pinNamed, hv, if_pos hn]

theorem State.pinNamed_retiring {t : TableId} {n : Nat} {w : Version}
    (hc : ∀ v, (s.table t).current = some v → v.number ≠ n)
    (hw : (s.table t).retiring = some w) (hn : w.number = n) :
    s.pinNamed t n = s.setTable t { s.table t with retiring := some w.pin } := by
  cases hv : (s.table t).current with
  | none => simp only [State.pinNamed, hv, hw, if_pos hn]
  | some v => simp only [State.pinNamed, hv, hw, if_pos hn, if_neg (hc v hv)]

theorem saveOwner_pushes (hm : s.part.state ≠ .maintenance) (hslot : slot.toNat = c.val)
    (h : (s.stack p).length < 4) :
    saveOwner p slot s = answering
      ((s.pinContext (s.cursor p c)).setStack p (s.cursor p c :: s.stack p))
      (replyOk (byteOf ((s.stack p).length + 1) :: contextBytes (s.cursor p c))) := by
  simp only [saveOwner, outsideMaintenance_out _ hm, slotOperand_val hslot]
  exact if_neg (Nat.not_le.mpr h)

theorem saveOwner_full (hm : s.part.state ≠ .maintenance) (hslot : slot.toNat = c.val)
    (h : 4 ≤ (s.stack p).length) : saveOwner p slot s = refusing s .stackFull := by
  simp only [saveOwner, outsideMaintenance_out _ hm, slotOperand_val hslot]
  exact if_pos h

theorem restoreOwner_empty (hm : s.part.state ≠ .maintenance) (hslot : slot.toNat = c.val)
    (h : s.stack p = []) : restoreOwner p slot s = refusing s .stackEmpty := by
  simp only [restoreOwner, outsideMaintenance_out _ hm, slotOperand_val hslot, h]

/-- With a context on the stack, RESTORE pops it into the slot, and what it shows is looked up after the
slot's old version is unpinned (R66, R67). -/
theorem restoreOwner_cons {x : Context} {rest : List Context} {offset : Nat} {flags : Flags}
    (hm : s.part.state ≠ .maintenance) (hslot : slot.toNat = c.val) (h : s.stack p = x :: rest)
    (hview : (((s.setStack p rest).setCursor p c x).unpinOld (s.cursor p c)).restoredView x
      = some (offset, flags)) :
    restoreOwner p slot s = answering
      (((s.setStack p rest).setCursor p c x).unpinOld (s.cursor p c))
      (replyOk (byteOf rest.length :: contextBytes x ++ wordBytes offset) flags) := by
  simp only [restoreOwner, outsideMaintenance_out _ hm, slotOperand_val hslot, h, hview]

theorem State.restoredView_some {b : Binding} {v : Version} {isCurrent : Bool}
    (h : s.lookup b.table b.version = some (v, isCurrent)) :
    s.restoredView (some b) = some (b.offset,
      { endReached := b.atEnd v.length, stale := !isCurrent, damaged := v.damaged }) := by
  simp only [State.restoredView, h]

end

/-- Settles O31: an unbound slot, the two roles a bound slot's version may hold, and a full stack. -/
theorem savePushesTheContext : Obligations.SavePushesTheContext := by
  rintro p slot tag c s hasks ⟨hadmits, hm⟩ hslot
  have hserve {u : State} {reply : Reply}
      (h : saveOwner p slot (s.leaseRenewed p) = (u, some reply)) :
      exec (.save p slot) s = .next (u.respond p tag reply) :=
    congrArg _ (State.serve_admitted hasks hadmits h)
  refine ⟨fun h => ⟨fun hb => ?_, fun b hb => ?_⟩, fun h => ?_⟩
  · have howner := saveOwner_pushes (s := s.leaseRenewed p) hm hslot h
    rw [show (s.leaseRenewed p).cursor p c = none from hb] at howner
    exact hserve howner
  · intro r pushed reply
    have howner := saveOwner_pushes (s := s.leaseRenewed p) hm hslot h
    rw [show (s.leaseRenewed p).cursor p c = some b from hb, State.pinContext] at howner
    refine ⟨fun v hv hn => ?_, fun w hc hw hn => ?_⟩
    · rw [State.pinNamed_current (s := s.leaseRenewed p) hv hn] at howner
      exact hserve howner
    · rw [State.pinNamed_retiring (s := s.leaseRenewed p) hc hw hn] at howner
      exact hserve howner
  · exact hserve (saveOwner_full (s := s.leaseRenewed p) hm hslot h)

/-- Settles O32: an empty stack is refused; an unbound and a bound context are popped alike. -/
theorem restorePopsTheContext : Obligations.RestorePopsTheContext := by
  rintro p slot tag c s hasks ⟨hadmits, hm⟩ hslot
  have hserve {u : State} {reply : Reply}
      (h : restoreOwner p slot (s.leaseRenewed p) = (u, some reply)) :
      exec (.restore p slot) s = .next (u.respond p tag reply) :=
    congrArg _ (State.serve_admitted hasks hadmits h)
  refine ⟨fun h => hserve (restoreOwner_empty (s := s.leaseRenewed p) hm hslot h),
    fun x rest hs => ?_⟩
  intro moved after
  have hafter : moved.unpinOld (s.cursor p c) = after := by
    show _ = (match s.cursor p c with
      | some old => moved.unpin old.table old.version
      | none => moved)
    cases s.cursor p c <;> rfl
  have hpops {offset : Nat} {flags : Flags} (hview : after.restoredView x = some (offset, flags)) :
      exec (.restore p slot) s = .next (after.respond p tag
        (replyOk (byteOf rest.length :: contextBytes x ++ wordBytes offset) flags)) := by
    rw [← hafter] at hview ⊢
    exact hserve (restoreOwner_cons (s := s.leaseRenewed p) hm hslot hs hview)
  refine ⟨?_, fun b v isCurrent hx hl => ?_⟩
  · rintro rfl
    exact hpops rfl
  · subst hx
    rw [← Binding.atEnd_eq_decide]
    exact hpops (State.restoredView_some hl)

/-! ## A request on a table by its writer (R76) -/

section
variable {s : State} {p : Port} {table : Byte} {t : TableId} {operands : Bool}
  {work : TableId → State → State × Option Reply}

theorem writerTable_writes (hm : s.part.state ≠ .maintenance) (ht : table.toNat = t.val)
    (hops : operands = true) (hw : s.writes p t) : writerTable p table operands work s = work t s := by
  obtain ⟨hdef, hwriter⟩ := hw
  simp only [writerTable, outsideMaintenance_out _ hm, tableOperand_val ht, hops, hdef, hwriter,
    ne_eq, not_true_eq_false, if_false, reduceCtorEq]

theorem writerTable_undefined (hm : s.part.state ≠ .maintenance) (ht : table.toNat = t.val)
    (hops : operands = true) (hd : (s.table t).entry.defined = false) :
    writerTable p table operands work s = refusing s .undefined := by
  simp only [writerTable, outsideMaintenance_out _ hm, tableOperand_val ht, hops, hd, if_true,
    if_false, reduceCtorEq]

theorem writerTable_denied (hm : s.part.state ≠ .maintenance) (ht : table.toNat = t.val)
    (hops : operands = true) (hd : (s.table t).entry.defined = true)
    (hw : (s.table t).entry.writer ≠ some p) :
    writerTable p table operands work s = refusing s .denied := by
  simp only [writerTable, outsideMaintenance_out _ hm, tableOperand_val ht, hops, hd, if_pos hw,
    if_false, reduceCtorEq]

theorem writerTable_range (hm : s.part.state ≠ .maintenance)
    (h : 31 < table.toNat ∨ operands = false) :
    writerTable p table operands work s = refusing s .range := by
  simp only [writerTable, outsideMaintenance_out _ hm]
  split
  next t ht =>
    rcases h with h | h
    · rw [tableOperand_none h] at ht
      cases ht
    · rw [if_pos h]
  next => rfl

theorem withOpenStaged_none {work : Staged → State → State × Option Reply}
    (h : (s.table t).staged = none) : withOpenStaged t work s = refusing s .notStaged := by
  simp only [withOpenStaged, h]

theorem withOpenStaged_opened {work : Staged → State → State × Option Reply} {st : Staged}
    (h : (s.table t).staged = some st) (ho : st.sub = .opened) :
    withOpenStaged t work s = work st s := by
  simp only [withOpenStaged, h, ho]

theorem withOpenStaged_busy {work : Staged → State → State × Option Reply} {st : Staged}
    (h : (s.table t).staged = some st) (ho : st.sub ≠ .opened) :
    withOpenStaged t work s = refusing s .busy := by
  simp only [withOpenStaged, h]
  split
  next hopen => exact absurd hopen ho
  all_goals rfl

end

/-! ## PERSIST -/

theorem QueueEntry.isPersist_eq_decide (e : QueueEntry) (t : TableId) :
    e.isPersist t = decide (e.op = .persist t) := by
  unfold QueueEntry.isPersist
  cases e.op <;> simp

theorem QueueEntry.isPersist_funext (t : TableId) :
    (fun e : QueueEntry => e.isPersist t) = fun e => decide (e.op = .persist t) :=
  funext fun e => e.isPersist_eq_decide t

/-- Check 9 of R116: the queue's head is a PERSIST of t that has been started. -/
theorem State.persistStarted_iff (s : State) (t : TableId) : s.persistStarted t = true ↔
    s.imageWork ≠ .idle ∧ s.imageQueue.head?.any (fun e => decide (e.op = .persist t)) = true := by
  unfold State.persistStarted State.headStarted
  cases s.imageQueue with
  | nil => simp
  | cons e rest => simp [QueueEntry.isPersist_eq_decide]

/-- Settles O41: the refusals of the writer's checks, and checks 6 to 11 of R116 in their order. -/
theorem persistQueuesOrMerges : Obligations.PersistQueuesOrMerges := by
  have hserve {p : Port} {table tag : Byte} {s u : State} {reply : Reply}
      (hasks : s.asks p (.persist table) tag) (hadmits : s.admits p)
      (h : persistOwner p table (s.leaseRenewed p) = (u, some reply)) :
      exec (.persist p table) s = .next (u.respond p tag reply) :=
    congrArg _ (State.serve_admitted hasks hadmits h)
  constructor
  · rintro p table tag s hasks ⟨hadmits, hm⟩ refused
    refine ⟨fun h => ?_, fun t ht => ⟨fun hd => ?_, fun hd hw => ?_⟩⟩ <;>
      refine hserve hasks hadmits ?_
    · exact writerTable_range (s := s.leaseRenewed p) hm (.inl h)
    · exact writerTable_undefined (s := s.leaseRenewed p) hm ht rfl hd
    · exact writerTable_denied (s := s.leaseRenewed p) hm ht rfl hd hw
  · rintro p table tag t s hasks ⟨hadmits, hm⟩ ht hw refused
    replace hserve {u : State} {reply : Reply} := hserve (u := u) (reply := reply) hasks hadmits
    rw [persistOwner, writerTable_writes (s := s.leaseRenewed p) hm ht rfl hw] at hserve
    split
    next hp => exact hserve (by rw [if_pos (by exact hp)]; rfl)
    next hp =>
    rw [if_neg (by exact hp)] at hserve
    unfold persistTable at hserve
    split
    next hd => exact hserve (by rw [if_pos (by exact hd)]; rfl)
    next hd =>
    rw [if_neg (by exact hd)] at hserve
    split
    next hl => exact hserve (by rw [if_pos (by exact hl)]; rfl)
    next hl =>
    rw [if_neg (by exact hl)] at hserve
    have hstarted : (s.leaseRenewed p).persistStarted t = true ↔ s.imageWork ≠ .idle
        ∧ s.imageQueue.head?.any (fun e => decide (e.op = .persist t)) = true :=
      s.persistStarted_iff t
    split
    next hb => exact hserve (by rw [if_pos (hstarted.mpr hb)]; rfl)
    next hb =>
    rw [if_neg (fun h => hb (hstarted.mp h)), QueueEntry.isPersist_funext] at hserve
    split
    next hq => exact hserve (by rw [if_pos (by exact hq)]; rfl)
    next hq =>
    rw [if_neg (by exact hq)] at hserve
    split
    next hf => exact hserve (by rw [if_pos (by exact hf)]; rfl)
    next hf =>
    rw [if_neg (by exact hf)] at hserve
    refine hserve ?_
    rw [State.leaseRenewed_number]
    rfl

/-! ## COMMIT, and the checks before a WRITE, COMMIT or ABORT -/

theorem writeOwner_asks {s : State} {p : Port} {table tag : Byte} {offset : Word} {words : List Word}
    (h : s.asksUnbegun p (.write table offset words) tag) :
    writeOwner p table offset words (s.leaseRenewed p)
      = writeStart p table offset words (s.leaseRenewed p) := by
  unfold writeOwner
  rcases h with h | h <;>
  · rw [State.turn_asks (s := s.leaseRenewed p) h]

/-- Settles O36: what COMMIT does with the STAGED version, and the checks that the three requests share. -/
theorem commitQueuesTheSumming : Obligations.CommitQueuesTheSumming := by
  have hcommit {p : Port} {table tag hold : Byte} {s u : State} {reply : Reply}
      (hasks : s.asks p (.commit table hold) tag) (hadmits : s.admits p)
      (h : commitOwner p table hold (s.leaseRenewed p) = (u, some reply)) :
      exec (.commit p table hold) s = .next (u.respond p tag reply) :=
    congrArg _ (State.serve_admitted hasks hadmits h)
  have hwrite {p : Port} {table tag : Byte} {offset : Word} {words : List Word} {s u : State}
      {reply : Reply} (hasks : s.asks p (.write table offset words) tag) (hadmits : s.admits p)
      (h : writeStart p table offset words (s.leaseRenewed p) = (u, some reply)) :
      exec (.write p table offset words) s = .next (u.respond p tag reply) :=
    congrArg _ (State.serve_admitted hasks hadmits ((writeOwner_asks (.inl hasks)).trans h))
  have habort {p : Port} {table tag : Byte} {s u : State} {reply : Reply}
      (hasks : s.asks p (.abort table) tag) (hadmits : s.admits p)
      (h : abortOwner p table (s.leaseRenewed p) = (u, some reply)) :
      exec (.abort p table) s = .next (u.respond p tag reply) :=
    congrArg _ (State.serve_admitted hasks hadmits h)
  have hoffset {offset : Word} (h : offset.toNat ≤ 4095) : (offsetOperand offset).isSome = true := by
    rw [offsetOperand_val h]; rfl
  constructor
  · rintro p table tag t s ⟨hadmits, hm⟩ ht hw refused
    refine ⟨fun hold st hasks hst => ⟨fun ho => ?_, fun ho => ?_⟩,
      fun offset words st hasks ho hst hsub => ?_, fun hst => ⟨fun hold hasks => ?_,
        fun offset words hasks ho => ?_, fun hasks => ?_⟩⟩
    · refine hcommit hasks hadmits ?_
      rw [commitOwner, writerTable_writes (s := s.leaseRenewed p) hm ht rfl hw,
        withOpenStaged_opened (s := s.leaseRenewed p) hst ho,
        State.setSub_some (s := s.leaseRenewed p) _ hst]
      rfl
    · refine hcommit hasks hadmits ?_
      rw [commitOwner, writerTable_writes (s := s.leaseRenewed p) hm ht rfl hw,
        withOpenStaged_busy (s := s.leaseRenewed p) hst ho]
      rfl
    · refine hwrite hasks hadmits ?_
      rw [writeStart, writerTable_writes (s := s.leaseRenewed p) hm ht (hoffset ho) hw,
        withOpenStaged_busy (s := s.leaseRenewed p) hst hsub]
      rfl
    · refine hcommit hasks hadmits ?_
      rw [commitOwner, writerTable_writes (s := s.leaseRenewed p) hm ht rfl hw,
        withOpenStaged_none (s := s.leaseRenewed p) hst]
      rfl
    · refine hwrite hasks hadmits ?_
      rw [writeStart, writerTable_writes (s := s.leaseRenewed p) hm ht (hoffset ho) hw,
        withOpenStaged_none (s := s.leaseRenewed p) hst]
      rfl
    · refine habort hasks hadmits ?_
      rw [abortOwner, writerTable_writes (s := s.leaseRenewed p) hm ht rfl hw]
      have hnone : ((s.leaseRenewed p).table t).staged = none := hst
      simp only [hnone]
      rfl
  · rintro p table tag s ⟨hadmits, hm⟩ refused each
    have heach {st : Status} (h : ∀ operands work, operands = true →
        writerTable p table operands work (s.leaseRenewed p) = refusing (s.leaseRenewed p) st) :
        each st :=
      ⟨fun hold hasks => hcommit hasks hadmits (h _ _ rfl),
        fun offset words hasks ho => hwrite hasks hadmits (h _ _ (hoffset ho)),
        fun hasks => habort hasks hadmits (h _ _ rfl)⟩
    refine ⟨fun h => heach fun _ _ _ => writerTable_range (s := s.leaseRenewed p) hm (.inl h),
      fun offset words hasks ho => hwrite hasks hadmits
        (writerTable_range (s := s.leaseRenewed p) hm (.inr ?_)),
      fun t ht => ⟨fun hd => heach fun _ _ hops =>
          writerTable_undefined (s := s.leaseRenewed p) hm ht hops hd,
        fun hd hw => heach fun _ _ hops =>
          writerTable_denied (s := s.leaseRenewed p) hm ht hops hd hw⟩⟩
    rw [offsetOperand_none ho]
    rfl

end Sys2Proof.Machine

namespace Sys2Proof.Machine

/-! ## The end of a hold -/

theorem exec_retirementNotice {s : State} {t : TableId} (h : t ∈ s.notices) :
    exec (.retirementNotice t) s
      = .next (({ s with notices := s.notices.erase t } : State).endHold t) :=
  congrArg _ (if_pos h)

theorem State.endHold_held {s : State} {t : TableId} {st : Staged} {limit : Nat}
    (hst : (s.table t).staged = some st) (hsub : st.sub = .held limit)
    (hr : (s.table t).retiring = none) :
    s.endHold t = if s.issuingSessionHolds t st then s.swapCommitted t st else s.releaseStaged t := by
  simp only [State.endHold, hst, hr, hsub]

theorem State.endHold_notHeld {s : State} {t : TableId}
    (h : ∀ st limit, (s.table t).staged = some st → st.sub ≠ .held limit) : s.endHold t = s := by
  unfold State.endHold
  split
  next st hst hr =>
    split
    next limit hsub => exact absurd hsub (h st limit hst)
    all_goals rfl
  all_goals rfl

theorem State.endHold_retiring {s : State} {t : TableId} (h : (s.table t).retiring.isSome = true) :
    s.endHold t = s := by
  unfold State.endHold
  split
  next st hst hr => rw [hr] at h; cases h
  all_goals rfl

/-- Settles O40: what the notice does in each case of R91, and the deadline of R92. -/
theorem holdEndsByNoticeOrDeadline : Obligations.HoldEndsByNoticeOrDeadline := by
  intro t s taken
  refine ⟨fun st limit hn hst hsub hr => ⟨fun p hw ho hnum => ?_, fun h => ?_⟩, fun hn h => ?_,
    fun hn h => ?_, fun st limit hst hsub => ?_⟩
  · rw [exec_retirementNotice hn, State.endHold_held (s := taken) hst hsub hr,
      if_pos ((taken.issuingSessionHolds_iff t st).mpr ⟨p, hw, ho, hnum⟩)]
    rfl
  · rw [exec_retirementNotice hn, State.endHold_held (s := taken) hst hsub hr, if_neg]
    intro hholds
    obtain ⟨p, hw, ho, hnum⟩ := (taken.issuingSessionHolds_iff t st).mp hholds
    exact h p hw ho hnum
  · rw [exec_retirementNotice hn, State.endHold_notHeld (s := taken) h]
  · rw [exec_retirementNotice hn, State.endHold_retiring (s := taken) h]
  · have hexpire : s.expireHold t = ((s.setStagedCheck t none).setSub t .opened).tellWriter t
        st.session (commitDone t st.version.number .retireBusy) := by
      simp only [State.expireHold, hst, hsub]
    show Host.Outcome.next (s.expireHold t) = _
    rw [hexpire, State.setStagedCheck_some none hst,
      State.setSub_some .opened (by rw [State.table_setTable_self]), State.setTable_setTable,
      State.table_setTable_self]
    rfl

/-! ## ABORT -/

section
variable {s : State} {t : TableId} {st : Staged}

theorem State.releaseStaged_some (h : (s.table t).staged = some st) :
    s.releaseStaged t = (s.releasePages st.version.pages st.version.faulty).setTable t
      { s.table t with staged := none } := by
  simp only [State.releaseStaged, h]

/-- An OPEN or HELD version has no work to end (R93). -/
theorem State.endStagedWork_resting (h : (s.table t).staged = some st)
    (hsub : st.sub = .opened ∨ ∃ n, st.sub = .held n) : s.endStagedWork t = s := by
  rcases hsub with hsub | ⟨n, hsub⟩ <;> simp only [State.endStagedWork, h, hsub]

theorem State.endStagedWork_store (h : (s.table t).staged = some st)
    (hsub : st.sub = .filling .store) : s.endStagedWork t = s.withdrawStoreRead t := by
  simp only [State.endStagedWork, h, hsub]

/-- A listed version's work without a COPY source in hand leaves the list (R93). -/
theorem State.endStagedWork_unpinned (h : (s.table t).staged = some st)
    (hsub : (∃ k, st.sub = .filling k ∧ k ≠ .store) ∨ ∃ n, st.sub = .summing n)
    (hw : ∀ w n, s.workList.head? = some t → s.headWork = some w → w.source ≠ some n) :
    s.endStagedWork t = s.leaveWorkList t := by
  have hsource : (match (if s.workList.head? = some t then s.headWork else none) with
      | some w => match w.source with
        | some n => s.unpin t n
        | none => s
      | none => s) = s := by
    split
    next w hhead =>
      split at hhead
      next hfirst =>
        split
        next n hn => exact absurd hn (hw w n hfirst hhead)
        next => rfl
      next => cases hhead
    next => rfl
  rcases hsub with ⟨k, hsub, hk⟩ | ⟨n, hsub⟩
  · cases k with
    | store => exact absurd rfl hk
    | _ => simp only [State.endStagedWork, h, hsub]; exact congrArg (·.leaveWorkList t) hsource
  · simp only [State.endStagedWork, h, hsub]
    exact congrArg (·.leaveWorkList t) hsource

/-- With a COPY source in hand, its pin is given back first (R93). -/
theorem State.endStagedWork_pinned {w : HeadWork} {n : Nat} (h : (s.table t).staged = some st)
    (hsub : (∃ k, st.sub = .filling k ∧ k ≠ .store) ∨ ∃ n, st.sub = .summing n)
    (hfirst : s.workList.head? = some t) (hw : s.headWork = some w) (hn : w.source = some n) :
    s.endStagedWork t = (s.unpin t n).leaveWorkList t := by
  rcases hsub with ⟨k, hsub, hk⟩ | ⟨m, hsub⟩
  · cases k with
    | store => exact absurd rfl hk
    | _ => simp only [State.endStagedWork, h, hsub, if_pos hfirst, hw, hn]
  · simp only [State.endStagedWork, h, hsub, if_pos hfirst, hw, hn]

theorem State.abandonStaged_eq (h : (s.table t).staged = some st) :
    s.abandonStaged t
      = ((s.endStagedWork t).releasePages st.version.pages st.version.faulty).setTable t
        { (s.endStagedWork t).table t with staged := none } :=
  State.releaseStaged_some ((s.endStagedWork_table t).1.trans h)

end

theorem QueueEntry.isStoreRead_eq_decide (e : QueueEntry) (t : TableId) :
    e.isStoreRead t = decide (e.op = .storeRead t) := by
  unfold QueueEntry.isStoreRead
  cases e.op <;> simp

theorem QueueEntry.filter_notStoreRead (l : List QueueEntry) (t : TableId) :
    l.filter (fun e => !e.isStoreRead t) = l.filter (fun e => e.op ≠ .storeRead t) :=
  List.filter_congr fun e _ => by rw [QueueEntry.isStoreRead_eq_decide, decide_not]

/-- Nothing in flight: every STORE_READ of the table leaves the queue (R93, R125). -/
theorem State.withdrawStoreRead_idle {s : State} (t : TableId) (h : s.imageWork = .idle) :
    s.withdrawStoreRead t
      = { s with imageQueue := s.imageQueue.filter (fun e => e.op ≠ .storeRead t) } := by
  unfold State.withdrawStoreRead
  split
  next hq => rw [hq]; exact congrArg (fun q => { s with imageQueue := q }) hq
  next e rest hq =>
    rw [if_neg (by simp [State.headStarted, h]), QueueEntry.filter_notStoreRead, hq]

/-- The STORE_READ in flight is stopped (R93, R125). -/
theorem State.withdrawStoreRead_head {s : State} {t : TableId} {e : QueueEntry}
    {rest : List QueueEntry} (h : s.imageWork ≠ .idle) (hq : s.imageQueue = e :: rest)
    (he : e.op = .storeRead t) :
    s.withdrawStoreRead t = { s with imageQueue := rest, imageWork := .idle } := by
  simp [State.withdrawStoreRead, State.headStarted, QueueEntry.isStoreRead_eq_decide, h, hq, he]

/-- Another operation in flight goes on (R93, R125). -/
theorem State.withdrawStoreRead_behind {s : State} {t : TableId} {e : QueueEntry}
    {rest : List QueueEntry} (h : s.imageWork ≠ .idle) (hq : s.imageQueue = e :: rest)
    (he : e.op ≠ .storeRead t) :
    s.withdrawStoreRead t
      = { s with imageQueue := e :: rest.filter (fun x => x.op ≠ .storeRead t) } := by
  simp [State.withdrawStoreRead, State.headStarted, QueueEntry.isStoreRead_eq_decide, h, hq, he]

/-- Settles O37: the work of each sub-state is ended, and the version released. -/
theorem abortReleasesTheVersion : Obligations.AbortReleasesTheVersion := by
  rintro p table tag t st s hasks ⟨hadmits, hm⟩ ht hw hst renewed released answered unlisted
  have hst' : (renewed.table t).staged = some st := hst
  have howner : abortOwner p table renewed
      = answering (renewed.abandonStaged t) (replyOk (wordBytes st.version.number ++ [st.sub.code])) := by
    rw [abortOwner, writerTable_writes (s := renewed) hm ht rfl hw]
    simp only [hst']
  have hanswered {x : State} (hx : renewed.endStagedWork t = x) :
      answered (renewed.abandonStaged t) = answered (released x) := by
    rw [← hx, State.abandonStaged_eq hst']
  obtain ⟨hnone, -, hother⟩ := renewed.abandonStaged_table t
  refine ⟨answered (renewed.abandonStaged t),
    congrArg _ (State.serve_admitted hasks hadmits howner), fun hsub => ?_, fun hsub => ⟨fun h => ?_,
      fun w n hfirst hhead hn => ?_⟩, fun hsub => ⟨fun hidle => ?_, fun e rest hbusy hq =>
        ⟨fun he => ?_, fun he => ?_⟩⟩, hnone, hother, ?_, ?_⟩
  · exact hanswered (State.endStagedWork_resting hst' hsub)
  · exact hanswered (State.endStagedWork_unpinned hst' hsub h)
  · refine hanswered ((State.endStagedWork_pinned hst' hsub hfirst hhead hn).trans ?_)
    rw [State.leaveWorkList, State.unpin_workList, State.unpin_headWork]
    rfl
  · exact hanswered ((State.endStagedWork_store hst' hsub).trans
      (State.withdrawStoreRead_idle (s := renewed) t hidle))
  · exact hanswered ((State.endStagedWork_store hst' hsub).trans
      (State.withdrawStoreRead_head (s := renewed) hbusy hq he))
  · exact hanswered ((State.endStagedWork_store hst' hsub).trans
      (State.withdrawStoreRead_behind (s := renewed) hbusy hq he))
  · exact congrArg PortEngine.buffer (State.respond_engine ..)
  · have hframe := renewed.abandonStaged_frame t
    generalize renewed.abandonStaged t = x at hframe
    generalize hE : (answered x).engines = E
    have hrespond : answered x = { x with engines := E } := by rw [← hE]; rfl
    have hx := congrArg (fun y : State => { y with engines := E }) hframe
    rw [hrespond]
    exact hx

end Sys2Proof.Machine

namespace Sys2Proof.Machine

/-! ## STAGE -/

theorem TableRecord.numberHeld_eq (r : TableRecord) (n : Nat) : r.numberHeld n
    = (r.current.any (fun v => decide (v.number = n))
      || r.retiring.any (fun v => decide (v.number = n))) := by
  unfold TableRecord.numberHeld
  cases r.current <;> cases r.retiring <;> simp

theorem TableRecord.pickNumber_eq (r : TableRecord) : r.pickNumber =
    if r.numberHeld r.nextVersion = false then r.nextVersion
    else if r.numberHeld (nextNumber r.nextVersion) = false then nextNumber r.nextVersion
    else nextNumber (nextNumber r.nextVersion) := by
  unfold TableRecord.pickNumber
  cases r.numberHeld r.nextVersion <;> cases r.numberHeld (nextNumber r.nextVersion) <;> rfl

theorem pagesFor_eq (length : Nat) : pagesFor length = (length + 255) / 256 := by
  simp [pagesFor, Config.pageWords]

theorem fillOperand_none {b : Byte} (h : 3 < b.toNat) : fillOperand b = none := by
  revert b; decide

/-- The three fills that take pages, and STORE. -/
theorem fillOperand_cases {b : Byte} (h : b.toNat ≤ 3) :
    (b = 0 ∧ fillOperand b = some .zero) ∨ (b = 1 ∧ fillOperand b = some .value)
      ∨ (b = 2 ∧ fillOperand b = some .copy) ∨ (b = 3 ∧ fillOperand b = some .store) := by
  have hb : b = 0 ∨ b = 1 ∨ b = 2 ∨ b = 3 := by bv_omega
  rcases hb with rfl | rfl | rfl | rfl
  · exact .inl ⟨rfl, rfl⟩
  · exact .inr (.inl ⟨rfl, rfl⟩)
  · exact .inr (.inr (.inl ⟨rfl, rfl⟩))
  · exact .inr (.inr (.inr ⟨rfl, rfl⟩))

section
variable {s : State} {p : Port} {t : TableId} {length : Nat} {kind : FillKind} {source : Nat}
  {damaged : Bool}

theorem stageSized_range {take : Owner}
    (h : length = 0 ∨ (s.table t).entry.maxPages * 256 < length) :
    stageSized t length take s = refusing s .range := if_pos h

theorem stageSized_exists {take : Owner} (h0 : length ≠ 0)
    (hmax : length ≤ (s.table t).entry.maxPages * 256) (h : (s.table t).staged.isSome = true) :
    stageSized t length take s = refusing s .stageExists := by
  have hsize : ¬(length = 0 ∨ (s.table t).entry.maxPages * Config.pageWords < length) :=
    not_or.mpr ⟨h0, Nat.not_lt.mpr hmax⟩
  rw [stageSized, if_neg hsize, if_pos h]

theorem stageSized_takes {take : Owner} (h0 : length ≠ 0)
    (hmax : length ≤ (s.table t).entry.maxPages * 256) (h : ¬(s.table t).staged.isSome = true) :
    stageSized t length take s = take s := by
  have hsize : ¬(length = 0 ∨ (s.table t).entry.maxPages * Config.pageWords < length) :=
    not_or.mpr ⟨h0, Nat.not_lt.mpr hmax⟩
  rw [stageSized, if_neg hsize, if_neg h]

theorem stageFilled_noSpace (h : s.freePool.length < pagesFor length) :
    stageFilled p t length kind source damaged s = refusing s .noSpace := by
  simp only [stageFilled, State.allocate, if_neg (Nat.not_le.mpr h)]

/-- A ZERO, VALUE or COPY STAGE that finds its pages (R78). -/
theorem stageFilled_takes (h : pagesFor length ≤ s.freePool.length) :
    stageFilled p t length kind source damaged s =
      let s2 := ({ s with freePool := s.freePool.drop (pagesFor length) } : State).createStaged t length
        (s.freePool.take (pagesFor length)) kind (s.session p).number
      answering { s2 with workList := s.workList ++ [t] }
        (stageReply (s.table t).pickNumber (pagesFor length) source damaged) := by
  simp only [stageFilled, State.allocate, if_pos h, List.length_take, Nat.min_eq_left h]
  rfl

end

section
variable {s : State} {p : Port} {t : TableId} {table fill : Byte} {length value : Word}

/-- Past the writer's checks and the greatest length, STAGE turns on its kind of fill (R77). -/
theorem stageOwner_writes (hm : s.part.state ≠ .maintenance) (ht : table.toNat = t.val)
    (hw : s.writes p t) (hl : length.toNat ≤ 4096) :
    (fill = 0 → stageOwner p table length fill value s
        = stageSized t length.toNat (stageFilled p t length.toNat .zero 0 false) s)
    ∧ (fill = 1 → stageOwner p table length fill value s
        = stageSized t length.toNat (stageFilled p t length.toNat (.value value) 0 false) s)
    ∧ (fill = 2 → stageOwner p table length fill value s
        = stageSized t length.toNat (stageCopy p t length.toNat) s)
    ∧ (fill = 3 → stageOwner p table length fill value s = stageFromStore p t length.toNat s)
    ∧ (3 < fill.toNat → stageOwner p table length fill value s = refusing s .range) := by
  rw [stageOwner, writerTable_writes hm ht rfl hw, if_neg (Nat.not_lt.mpr hl)]
  refine ⟨?_, ?_, ?_, ?_, fun h => by rw [fillOperand_none h]⟩ <;> rintro rfl <;> rfl

/-- A fill that takes pages is checked for its size first, a COPY for its source next (R77). -/
theorem stageOwner_sized (hm : s.part.state ≠ .maintenance) (ht : table.toNat = t.val)
    (hw : s.writes p t) (hl : length.toNat ≤ 4096) (hf : fill.toNat ≤ 3) (h3 : fill ≠ 3) :
    ∃ take : Owner, stageOwner p table length fill value s = stageSized t length.toNat take s
      ∧ (fill = 2 ∧ (s.table t).current = none → take s = refusing s .empty)
      ∧ (¬(fill = 2 ∧ (s.table t).current = none) → ∃ kind source damaged,
          take s = stageFilled p t length.toNat kind source damaged s) := by
  obtain ⟨hzero, hvalue, hcopy, -, -⟩ := stageOwner_writes (fill := fill) (value := value) hm ht hw hl
  rcases fillOperand_cases hf with ⟨h, -⟩ | ⟨h, -⟩ | ⟨h, -⟩ | ⟨h, -⟩
  · exact ⟨_, hzero h, fun h2 => absurd (h.symm.trans h2.1) (by decide), fun _ => ⟨_, _, _, rfl⟩⟩
  · exact ⟨_, hvalue h, fun h2 => absurd (h.symm.trans h2.1) (by decide), fun _ => ⟨_, _, _, rfl⟩⟩
  · refine ⟨_, hcopy h, fun ⟨_, hnone⟩ => ?_, fun hsome => ?_⟩
    · simp only [stageCopy, hnone]
    · cases hv : (s.table t).current with
      | none => exact absurd ⟨h, hv⟩ hsome
      | some v => exact ⟨.copy v.number, v.number, v.damaged, by simp only [stageCopy, hv]⟩
  · exact absurd h h3

theorem stageOwner_long (hm : s.part.state ≠ .maintenance) (ht : table.toNat = t.val)
    (hw : s.writes p t) (hl : 4096 < length.toNat) :
    stageOwner p table length fill value s = refusing s .range := by
  rw [stageOwner, writerTable_writes hm ht rfl hw, if_pos hl]

end

theorem stageReply_undamaged (version pages source : Nat) :
    stageReply version pages source false
      = replyAccepted (wordBytes version ++ [byteOf pages] ++ wordBytes source) := rfl

/-- Settles O34: each kind of fill creates its version under the number picked; the refusals follow the
checks in their order. -/
theorem stageCreatesAVersion : Obligations.StageCreatesAVersion := by
  have hserve {p : Port} {table : Byte} {length : Word} {fill : Byte} {value : Word} {tag : Byte}
      {s u : State} {reply : Reply} (hasks : s.asks p (.stage table length fill value) tag)
      (hadmits : s.admits p)
      (h : stageOwner p table length fill value (s.leaseRenewed p) = (u, some reply)) :
      exec (.stage p table length fill value) s = .next (u.respond p tag reply) :=
    congrArg _ (State.serve_admitted hasks hadmits h)
  constructor
  · rintro p table length fill value tag t s hasks ⟨hadmits, hm⟩ ht hw hst r following held first
      second number created n filled
    have hnumber : number = r.pickNumber := by
      rw [TableRecord.pickNumber_eq, TableRecord.numberHeld_eq, TableRecord.numberHeld_eq]
      rfl
    have hcreated (s1 : State) (h : s1.table t = s.table t) (pages : List Nat) (kind : FillKind) :
        s1.createStaged t length.toNat pages kind (s.session p).number
          = s1.setTable t (created pages kind) := by
      show _ = s1.setTable t { r with
        nextVersion := nextNumber number
        staged := some
          { version := { number := number, length := length.toNat, pages := pages, check := none
                         pins := 0, damage := .clear, faulty := [] }
            sub := .filling kind, session := (s.session p).number } }
      rw [hnumber, State.createStaged, h]
    refine ⟨fun h1 hmax hl hn => ?_, fun h3 h0 hpersist hqueue => ?_⟩
    · obtain ⟨hzero, hvalue, hcopy, -, -⟩ := stageOwner_writes (s := s.leaseRenewed p)
        (fill := fill) (length := length) (value := value) hm ht hw hl
      have hsized (take : Owner) : stageSized t length.toNat take (s.leaseRenewed p)
          = take (s.leaseRenewed p) := by
        refine stageSized_takes (s := s.leaseRenewed p) (by omega) hmax ?_
        show ¬(s.table t).staged.isSome = true
        rw [hst]
        exact Bool.false_ne_true
      have hfilled (kind : FillKind) (source : Nat) (damaged : Bool)
          (h : stageOwner p table length fill value (s.leaseRenewed p)
            = stageFilled p t length.toNat kind source damaged (s.leaseRenewed p)) :
          filled kind source damaged := by
        refine hserve hasks hadmits (h.trans ?_)
        have hpages : pagesFor length.toNat = n := pagesFor_eq _
        rw [stageFilled_takes (s := s.leaseRenewed p) (hpages.symm ▸ hn), State.leaseRenewed_number,
          hcreated ({ s.leaseRenewed p with
            freePool := (s.leaseRenewed p).freePool.drop (pagesFor length.toNat) }) rfl, hpages]
        show answering _ (stageReply r.pickNumber n source damaged) = _
        rw [← hnumber]
        rfl
      refine ⟨fun h => hfilled _ _ _ ((hzero h).trans (hsized _)),
        fun h => hfilled _ _ _ ((hvalue h).trans (hsized _)),
        fun v h hv => hfilled _ _ _ ((hcopy h).trans ((hsized _).trans ?_))⟩
      have hv' : ((s.leaseRenewed p).table t).current = some v := hv
      simp only [stageCopy, hv', Version.damaged]
    · subst h0
      obtain ⟨-, -, -, hstore, -⟩ := stageOwner_writes (s := s.leaseRenewed p)
        (fill := fill) (length := 0) (value := value) hm ht hw (by decide)
      refine hserve hasks hadmits ((hstore h3).trans ?_)
      have hnone : ¬((s.leaseRenewed p).table t).staged.isSome = true := by
        show ¬(s.table t).staged.isSome = true
        rw [hst]
        exact Bool.false_ne_true
      have hpers : ¬((s.leaseRenewed p).table t).entry.persistent = false := by
        show ¬(s.table t).entry.persistent = false
        rw [show (s.table t).entry.persistent = true from hpersist]
        exact Bool.noConfusion
      have hfit : ¬Config.queueCapacity ≤ (s.leaseRenewed p).imageQueue.length :=
        Nat.not_le.mpr hqueue
      rw [stageFromStore, if_neg (by decide), if_neg hpers, if_neg hnone, if_neg hfit, stageStore,
        State.leaseRenewed_number]
      have hzero := hcreated (s.leaseRenewed p) rfl [] .store
      rw [show BitVec.toNat (0 : Word) = 0 from rfl] at hzero
      simp only [hzero]
      show answering _ (stageReply r.pickNumber 0 0 false) = _
      rw [← hnumber]
      rfl
  · rintro p table length fill value tag t s hasks ⟨hadmits, hm⟩ ht r refused
    replace hserve {st : Status} (h : stageOwner p table length fill value (s.leaseRenewed p)
        = refusing (s.leaseRenewed p) st) : refused st := hserve hasks hadmits h
    refine ite_prop_iff_and.mpr ⟨fun hd =>
      hserve (writerTable_undefined (s := s.leaseRenewed p) hm ht rfl hd), fun hd => ?_⟩
    have hdef : (s.table t).entry.defined = true := by simpa [r] using hd
    refine ite_prop_iff_and.mpr ⟨fun hp =>
      hserve (writerTable_denied (s := s.leaseRenewed p) hm ht rfl hdef hp), fun hp => ?_⟩
    have hw : s.writes p t := ⟨hdef, not_not.mp hp⟩
    refine ite_prop_iff_and.mpr ⟨fun hl =>
      hserve (stageOwner_long (s := s.leaseRenewed p) hm ht hw hl), fun hl => ?_⟩
    obtain ⟨hzero, hvalue, hcopy, hstore, hkind⟩ := stageOwner_writes (s := s.leaseRenewed p)
      (fill := fill) (length := length) (value := value) hm ht hw (Nat.not_lt.mp hl)
    refine ite_prop_iff_and.mpr ⟨fun hf => ?_, fun hf => ?_⟩
    · exact hserve (hkind hf)
    have hf' : fill.toNat ≤ 3 := Nat.not_lt.mp hf
    have hzero_iff : length = 0 ↔ length.toNat = 0 := by bv_omega
    by_cases h3 : fill = 3
    · replace hserve {st : Status} (h : stageFromStore p t length.toNat (s.leaseRenewed p)
          = refusing (s.leaseRenewed p) st) : refused st := hserve ((hstore h3).trans h)
      unfold stageFromStore at hserve
      refine ite_prop_iff_and.mpr ⟨fun h0 => ?_, fun h0 => ?_⟩
      · have hne : length.toNat ≠ 0 := fun hz => by
          rcases h0 with h0 | h0
          · exact h0.1 h3
          · exact h0.2 (hzero_iff.mpr hz)
        exact hserve (by rw [if_pos hne])
      have heq : ¬length.toNat ≠ 0 := fun hz => h0 (.inr ⟨h3, fun h => hz (hzero_iff.mp h)⟩)
      rw [if_neg heq] at hserve
      refine ite_prop_iff_and.mpr ⟨fun hmax => ?_, fun _ => ?_⟩
      · exact absurd h3 hmax.1
      refine ite_prop_iff_and.mpr ⟨fun hn => ?_, fun hn => ?_⟩
      · exact hserve (by rw [if_pos (by exact hn.2)])
      have hpers : ¬((s.leaseRenewed p).table t).entry.persistent = false := fun h => hn ⟨h3, h⟩
      rw [if_neg hpers] at hserve
      refine ite_prop_iff_and.mpr ⟨fun hs => ?_, fun hs => ?_⟩
      · exact hserve (by rw [if_pos (by exact hs)])
      rw [if_neg (by exact hs)] at hserve
      refine ite_prop_iff_and.mpr ⟨fun he => ?_, fun _ => ?_⟩
      · exact absurd (h3.symm.trans he.1) (by decide)
      refine ite_prop_iff_and.mpr ⟨fun hq => ?_, fun _ => ?_⟩
      · exact hserve (by rw [if_pos (by exact hq.2)])
      refine ite_prop_iff_and.mpr ⟨fun hp => ?_, fun _ => ?_⟩
      · exact absurd h3 hp.1
      trivial
    · obtain ⟨take, howner, hempty, htakes⟩ := stageOwner_sized (s := s.leaseRenewed p)
        (value := value) hm ht hw (Nat.not_lt.mp hl) hf' h3
      rw [howner] at hserve
      refine ite_prop_iff_and.mpr ⟨fun h0 => ?_, fun h0 => ?_⟩
      · rcases h0 with h0 | h0
        · exact hserve (stageSized_range (.inl (hzero_iff.mp h0.2)))
        · exact absurd h0.1 h3
      have hne : length.toNat ≠ 0 := fun hz => h0 (.inl ⟨h3, hzero_iff.mpr hz⟩)
      refine ite_prop_iff_and.mpr ⟨fun hmax => ?_, fun hmax => ?_⟩
      · exact hserve (stageSized_range (s := s.leaseRenewed p) (.inr hmax.2))
      have hle : length.toNat ≤ r.entry.maxPages * 256 :=
        Nat.not_lt.mp fun h => hmax ⟨h3, h⟩
      refine ite_prop_iff_and.mpr ⟨fun hn => ?_, fun _ => ?_⟩
      · exact absurd hn.1 h3
      refine ite_prop_iff_and.mpr ⟨fun hs => ?_, fun hs => ?_⟩
      · exact hserve (stageSized_exists (s := s.leaseRenewed p) hne hle hs)
      rw [stageSized_takes (s := s.leaseRenewed p) hne hle hs] at hserve
      refine ite_prop_iff_and.mpr ⟨fun he => ?_, fun he => ?_⟩
      · exact hserve (hempty he)
      obtain ⟨kind, source, damaged, htake⟩ := htakes he
      refine ite_prop_iff_and.mpr ⟨fun hq => ?_, fun _ => ?_⟩
      · exact absurd hq.1 h3
      refine ite_prop_iff_and.mpr ⟨fun hp => ?_, fun _ => ?_⟩
      · have hshort : s.freePool.length < pagesFor length.toNat := by rw [pagesFor_eq]; exact hp.2
        exact hserve (htake.trans (stageFilled_noSpace (s := s.leaseRenewed p) hshort))
      trivial

end Sys2Proof.Machine

namespace Sys2Proof.Machine

theorem State.admits_leaseRenewed {s : State} {p : Port} (h : s.admits p) :
    (s.leaseRenewed p).admits p := by
  obtain ⟨hr, hl, ho⟩ := h
  exact ⟨hr, hl, (State.leaseRenewed_isOpen s p p).trans ho⟩

/-! ## WRITE -/

theorem State.writeHeld_iff (s : State) : s.writeHeld = true ↔
    s.writeWaits = true ∨ ∃ w x, s.headWork = some w ∧ w.copied = some x := by
  unfold State.writeHeld
  cases s.headWork with
  | none => simp
  | some w => cases hx : w.copied <;> simp [hx]

section
variable {s : State} {p : Port} {t : TableId} {table tag : Byte} {offset : Word}
  {words : List Word} {st : Staged}

/-- Past the checks of R76, a WRITE turns on the length, and on whether it may begin (R81, R86). -/
theorem writeStart_opened (hm : s.part.state ≠ .maintenance) (ht : table.toNat = t.val)
    (ho : offset.toNat ≤ 4095) (hw : s.writes p t) (hst : (s.table t).staged = some st)
    (hsub : st.sub = .opened) :
    writeStart p table offset words s =
      if st.version.length < offset.toNat + words.length then refusing s .range
      else if s.writeHeld then (s.setTurn p .held, none)
      else writeTurn p { number := st.version.number, pages := st.version.pages
                         offset := offset.toNat, words := words, count := words.length } s := by
  rw [writeStart, writerTable_writes hm ht (by rw [offsetOperand_val ho]; rfl) hw,
    withOpenStaged_opened hst hsub]

/-- A WRITE beside which no other requestor waits stores its words and answers (R86). -/
theorem writeTurn_alone (job : WriteJob) (h : ∀ q, s.waits q = true → q = .staging) :
    writeTurn p job s = answering (s.writeWords .staging job.pages job.offset job.words)
      (replyOk (wordBytes job.number ++ [byteOf job.count])) := by
  rw [writeTurn, State.writeOn_alone _ _ _ h]

theorem writeOwner_writing {job : WriteJob} (h : s.turn p = .writing job) :
    writeOwner p table offset words s = writeTurn p job s := by
  simp only [writeOwner, h]

/-- Without a grant a WRITE stays where it is (R15). -/
theorem writeTurn_notGranted {job : WriteJob} {w : Word} {rest : List Word}
    (hw : job.words = w :: rest) (hg : s.grants .staging = false) :
    writeTurn p job s = (s.setTurn p (.writing job), none) := by
  have hon : State.writeOn job.words s job = (s, job) := by
    rw [hw, State.writeOn, if_neg (by simp [hg]), ← hw]
  simp only [writeTurn, hon]
  rw [hw]

/-- The words of a WRITE from one that is granted on (R15, R86). -/
theorem State.writeOn_granted {job : WriteJob} {w : Word} {rest : List Word} {a : Nat}
    (ha : wordAddress job.pages job.offset = some a) (hg : s.grants .staging = true) :
    State.writeOn (w :: rest) s job
      = State.writeOn rest { s with mem := Memory.write s.mem a (storedOf w), arbiter := .imageStore }
        { job with offset := job.offset + 1, words := rest } := by
  rw [State.writeOn, if_pos hg, State.writeGranted_eq]
  simp only [ha]
  rfl

end

/-- Settles O35: a WRITE that begins, one that goes on, and one past the length. -/
theorem writeStoresTheWords : Obligations.WriteStoresTheWords := by
  have hexec (p : Port) (table : Byte) (offset : Word) (words : List Word) (s : State) :
      exec (.write p table offset words) s
        = .next (s.serve p (.write table offset words) (writeOwner p table offset words)) := rfl
  refine ⟨?begins, ?goesOn, ?refused⟩
  case begins =>
    rintro p table offset words tag t st s hasks ⟨hadmits, hm⟩ ht ho hw hst hsub hne hlen held
    obtain ⟨turn, hturn⟩ := State.asksUnbegun_turn hasks
    have hreading (j : ReadJob) : turn ≠ .reading j := by
      rintro rfl
      rcases hasks with h | h
      · cases (State.turn_asks hturn).symm.trans (State.turn_asks h)
      · cases (State.turn_asks hturn).symm.trans (State.turn_asks h)
    have hheld : s.writeHeld = true ↔ held := s.writeHeld_iff
    have hstart : writeOwner p table offset words (s.leaseRenewed p)
        = if s.writeHeld then ((s.leaseRenewed p).setTurn p .held, none)
          else writeTurn p { number := st.version.number, pages := st.version.pages
                             offset := offset.toNat, words := words, count := words.length }
            (s.leaseRenewed p) := by
      rw [writeOwner_asks hasks, writeStart_opened (s := s.leaseRenewed p) hm ht ho hw hst hsub,
        if_neg (Nat.not_lt.mpr hlen)]
      have hrenewed : (s.leaseRenewed p).writeHeld = s.writeHeld := by
        rw [State.writeHeld, State.leaseRenewed_writeWaits]
        rfl
      rw [hrenewed]
    refine ⟨fun h => ?_, fun h => ?_, fun h halone hnodup _ _ => ?_⟩
    · rw [if_pos (hheld.mpr h)] at hstart
      rw [hexec, State.serve_waits hturn hadmits hstart]
    · rw [if_neg fun hh => h (hheld.mp hh)] at hstart
      rw [hexec, hexec]
      have hturn1 : (s.leaseRenewed p).asksAt p (.write table offset words) tag turn := hturn
      exact congrArg _ (State.serve_begins hturn hadmits hstart hturn1
        (State.admits_leaseRenewed hadmits) (s.leaseRenewed_leaseRenewed p)
        (writeOwner_writing (State.turn_setTurn_self _ hturn1))
        (writeTurn_setTurn hturn1 hreading _))
    · rw [if_neg fun hh => h (hheld.mp hh), writeTurn_alone _ (by simpa using halone)] at hstart
      rw [hexec, State.serve_admitted hturn hadmits hstart]
      refine ⟨_, rfl, ?_, fun i w a hi ha => ⟨storedOf w, ?_, valueOf_storedOf w, oddOnes_storedOf w⟩,
        fun a ha => ?_⟩
      · rw [State.writeWords_frame, if_neg hne]
        rfl
      · exact State.writeWords_self (s.leaseRenewed p) .staging _ _ _ hnodup hi ha
      · exact State.writeWords_other (s.leaseRenewed p) .staging _ _ _ ha
  case goesOn =>
    intro p table offset all tag job w rest a s hasks hadmits hwords ha stored
    have howner : writeOwner p table offset all (s.leaseRenewed p)
        = writeTurn p job (s.leaseRenewed p) := writeOwner_writing (State.turn_asks hasks)
    have hgrants : (s.leaseRenewed p).grants .staging = s.grants .staging :=
      State.leaseRenewed_grants ..
    refine ⟨fun hg => ?_, fun hg => ⟨fun hrest hq => ?_, fun hrest => ?_⟩⟩
    · rw [writeTurn_notGranted hwords (hgrants.trans hg),
        State.setTurn_stay (s := s.leaseRenewed p) hasks] at howner
      rw [hexec, State.serve_waits hasks hadmits howner]
    · obtain ⟨q, hqs, hqw⟩ := hq
      have hagain : stored.grants .staging = false :=
        State.not_grants_again (q := q) rfl hqs ((State.leaseRenewed_waits s p q).trans hqw)
      obtain ⟨x, xs, rfl⟩ := List.exists_cons_of_ne_nil hrest
      have hon : State.writeOn job.words (s.leaseRenewed p) job
          = (stored, { job with offset := job.offset + 1, words := x :: xs }) := by
        rw [hwords, State.writeOn_granted ha (hgrants.trans hg)]
        show State.writeOn (x :: xs) stored _ = _
        rw [State.writeOn, if_neg (by simp [hagain])]
      rw [writeTurn, hon] at howner
      rw [hexec, State.serve_waits hasks hadmits howner]
    · subst hrest
      have hon : State.writeOn job.words (s.leaseRenewed p) job
          = (stored, { job with offset := job.offset + 1, words := [] }) := by
        rw [hwords, State.writeOn_granted ha (hgrants.trans hg)]
        rfl
      rw [writeTurn, hon] at howner
      rw [hexec, State.serve_admitted hasks hadmits howner]
  case refused =>
    rintro p table offset words tag t st s hasks ⟨hadmits, hm⟩ ht ho hw hst hsub hlen
    obtain ⟨turn, hturn⟩ := State.asksUnbegun_turn hasks
    have hstart : writeOwner p table offset words (s.leaseRenewed p)
        = refusing (s.leaseRenewed p) .range := by
      rw [writeOwner_asks hasks, writeStart_opened (s := s.leaseRenewed p) hm ht ho hw hst hsub,
        if_pos hlen]
    rw [hexec, State.serve_admitted hturn hadmits hstart]

end Sys2Proof.Machine

namespace Sys2Proof.Machine

/-! ## What a report, a release and an event leave -/

theorem State.damageTold_table (s : State) (r : TableRecord) (t : TableId) (v : Version) (n : Nat)
    (u : TableId) : (s.damageTold r t v n).table u = s.table u := by
  unfold State.damageTold
  split
  · rw [State.enterEvents_table]
  · rfl

/-- A parity report is discarded, or writes its table's record and tells the damage (R34). -/
theorem State.parityReport_shape (s : State) (t : TableId) (n page : Nat) :
    s.parityReport t n page = s
      ∨ ∃ r v, s.parityReport t n page = (s.setTable t r).damageTold (s.table t) t v n := by
  by_cases hc : ∃ v, (s.table t).current = some v ∧ v.number = n
  · obtain ⟨v, hv, hn⟩ := hc
    exact .inr ⟨_, v, State.parityReport_current page hv hn⟩
  have hc' : ∀ w, (s.table t).current = some w → w.number ≠ n := fun w hw hn => hc ⟨w, hw, hn⟩
  by_cases hr : ∃ v, (s.table t).retiring = some v ∧ v.number = n
  · obtain ⟨v, hv, hn⟩ := hr
    exact .inr ⟨_, v, State.parityReport_retiring page hc' hv hn⟩
  have hr' : ∀ w, (s.table t).retiring = some w → w.number ≠ n := fun w hw hn => hr ⟨w, hw, hn⟩
  by_cases hs : ∃ st, (s.table t).staged = some st ∧ st.version.number = n
  · obtain ⟨st, hst, hn⟩ := hs
    exact .inr ⟨_, st.version, State.parityReport_staged page hc' hr' hst hn⟩
  · exact .inl (State.parityReport_absent page hc' hr' fun st hst hn => hs ⟨st, hst, hn⟩)

theorem State.parityReport_table_other (s : State) {t u : TableId} (n page : Nat) (hu : u ≠ t) :
    (s.parityReport t n page).table u = s.table u := by
  obtain h | ⟨r, v, h⟩ := s.parityReport_shape t n page
  · rw [h]
  · rw [h, State.damageTold_table, State.table_setTable_other _ _ _ hu]

theorem State.withDirectoryOf_trans {a b c : State} (hb : b = a.withDirectoryOf b)
    (hc : c = b.withDirectoryOf c) : c = a.withDirectoryOf c := by
  rw [hb] at hc
  exact hc

theorem State.withDirectoryOf_of_records {a b : State} (h : b = a.withRecordsOf b) :
    b = a.withDirectoryOf b := by
  have hpool : b.freePool = a.freePool := (congrArg State.freePool h).trans rfl
  have hq : b.quarantine = a.quarantine := (congrArg State.quarantine h).trans rfl
  have hn : b.notices = a.notices := (congrArg State.notices h).trans rfl
  rw [State.withDirectoryOf, hpool, hq, hn]
  exact h

/-- A step of the directory, the entry gone from the work list, and an event for the writer. -/
theorem State.unlisted_frame {s d : State} {a : Requestor}
    (hd : d = ({ s with arbiter := a } : State).withDirectoryOf d) (l : List TableId) (t : TableId)
    (n : Nat) (e : Event) :
    ({ d with workList := l, headWork := none } : State).tellWriter t n e
      = { s.withDirectoryOf (({ d with workList := l, headWork := none } : State).tellWriter t n e)
          with workList := l, headWork := none, arbiter := a } := by
  have ht := State.tellWriter_frame ({ d with workList := l, headWork := none } : State) t n e
  generalize ({ d with workList := l, headWork := none } : State).tellWriter t n e = x at ht
  rw [hd] at ht
  rw [ht]
  rfl

/-! ## FILL_WORD -/

section
variable {s : State} {t : TableId} {rest : List TableId} {st : Staged} {w : HeadWork}

theorem exec_fillWord_granted (hww : s.writeWaits = false) (hg : s.grants .staging = true) :
    exec .fillWord s = .next s.fillHead := by
  have hgranted : s.headGranted = true := by simp [State.headGranted, hww, hg]
  exact congrArg _ (if_pos hgranted)

theorem exec_fillWord_notGranted (h : s.writeWaits = true ∨ s.grants .staging = false) :
    exec .fillWord s = .next s := by
  have hgranted : ¬s.headGranted = true := by
    rcases h with h | h <;> simp [State.headGranted, h]
  exact congrArg _ (if_neg hgranted)

/-- The head's progress is what it holds, or the start of a fill (R82). -/
theorem State.headWork_getD {initial : HeadWork}
    (h : s.headWork = some w ∨ s.headWork = none ∧ w = initial) : s.headWork.getD initial = w := by
  rcases h with h | ⟨h, rfl⟩ <;> rw [h] <;> rfl

theorem State.fillHead_zero (hl : s.workList = t :: rest) (hst : (s.table t).staged = some st)
    (hsub : st.sub = .filling .zero) :
    s.fillHead = s.fillOne t st (s.headWork.getD HeadWork.atFill) 0 := by
  simp only [State.fillHead, hl, hst, hsub]

theorem State.fillHead_value {x : Word} (hl : s.workList = t :: rest)
    (hst : (s.table t).staged = some st) (hsub : st.sub = .filling (.value x)) :
    s.fillHead = s.fillOne t st (s.headWork.getD HeadWork.atFill) x := by
  simp only [State.fillHead, hl, hst, hsub]

theorem State.fillHead_copy {n source : Nat} (hl : s.workList = t :: rest)
    (hst : (s.table t).staged = some st) (hsub : st.sub = .filling (.copy n))
    (hw : s.headWork.getD HeadWork.atFill = w) (hsource : w.source = some source) :
    s.fillHead = s.copyOne t st w source := by
  simp only [State.fillHead, hl, hst, hsub, hw, State.copyStep, hsource]

theorem State.copyOne_copied {source : Nat} {x : Word} (h : w.copied = some x) :
    s.copyOne t st w source = s.fillOne t st w x := by
  simp only [State.copyOne, h]

section
variable {source : Nat} {v : Version} {isCurrent : Bool} (hnone : w.copied = none)
  (hl : s.lookup t source = some (v, isCurrent))
include hnone hl

theorem State.copyOne_past (h : v.length ≤ w.offset) :
    s.copyOne t st w source = s.fillOne t st w 0 := by
  simp only [State.copyOne, hnone, hl, if_neg (Nat.not_lt.mpr h)]

theorem State.copyOne_good (h : w.offset < v.length)
    (hodd : oddOnes (s.versionWord v.pages w.offset) = true) :
    s.copyOne t st w source = ({ s with arbiter := .imageStore } : State).writeCopied t st w
      (valueOf (s.versionWord v.pages w.offset)) := by
  simp only [State.copyOne, hnone, hl, if_pos h, State.readGranted_eq, hodd, if_true]
  rfl

theorem State.copyOne_bad (h : w.offset < v.length)
    (hodd : oddOnes (s.versionWord v.pages w.offset) = false) :
    s.copyOne t st w source
      = ({ s with arbiter := .imageStore } : State).failCopy t st source w.offset := by
  simp only [State.copyOne, hnone, hl, if_pos h, State.readGranted_eq, hodd, if_false,
    reduceCtorEq]
  rfl

end

/-- Beside no other requestor the word just read is written at once (R15, R83). -/
theorem State.writeCopied_alone (value : Word) (h : ∀ q, s.waits q = true → q = .staging) :
    s.writeCopied t st w value = s.fillOne t st w value :=
  if_pos (State.grants_alone fun q hq => h q ((s.mem_waiting q).mp hq))

/-- Where another requestor waits it is granted first, and the engine keeps the word (R15, R83). -/
theorem State.writeCopied_keeps (value : Word) (ha : s.arbiter = .imageStore)
    (h : ∃ q, q ≠ .staging ∧ s.waits q = true) :
    s.writeCopied t st w value = { s with headWork := some { w with copied := some value } } := by
  obtain ⟨q, hq, hw⟩ := h
  have hg : s.grants .staging = false := State.not_grants_again (r := .staging) ha hq hw
  exact if_neg (by rw [hg]; exact Bool.false_ne_true)

theorem State.fillOne_last {a : Nat} (value : Word) (hl : s.workList = t :: rest)
    (hst : (s.table t).staged = some st) (ha : wordAddress st.version.pages w.offset = some a)
    (h : w.offset + 1 = st.version.length) (hsource : w.source = none) :
    s.fillOne t st w value
      = ({ ({ s with mem := Memory.write s.mem a (storedOf value), arbiter := .imageStore } :
            State).setTable t { s.table t with staged := some { st with sub := .opened } } with
          workList := s.workList.filter (fun u => u ≠ t), headWork := none } : State).tellWriter t
            st.session (fillDone t st.version.number .ok) := by
  have hc := State.fillOne_completes value hl hst ha h
  simp only [hsource] at hc
  exact hc

theorem State.fillOne_last_copy {a source : Nat} (value : Word) (hl : s.workList = t :: rest)
    (hst : (s.table t).staged = some st) (ha : wordAddress st.version.pages w.offset = some a)
    (h : w.offset + 1 = st.version.length) (hsource : w.source = some source) :
    let unpinned : State :=
      ({ s with mem := Memory.write s.mem a (storedOf value), arbiter := .imageStore } :
        State).unpin t source
    s.fillOne t st w value
      = ({ unpinned.setTable t { unpinned.table t with staged := some { st with sub := .opened } } with
          workList := s.workList.filter (fun u => u ≠ t), headWork := none } : State).tellWriter t
            st.session (fillDone t st.version.number .ok) := by
  have hc := State.fillOne_completes value hl hst ha h
  simp only [hsource] at hc
  exact hc

end

end Sys2Proof.Machine

namespace Sys2Proof.Machine

theorem State.lookup_current {s : State} {t : TableId} {n : Nat} {v : Version}
    (hv : (s.table t).current = some v) (hn : v.number = n) : s.lookup t n = some (v, true) := by
  show (s.table t).lookup n = _
  simp only [TableRecord.lookup, hv, if_pos hn]

theorem TableRecord.unpinned_current {r : TableRecord} {n : Nat} {v : Version}
    (hv : r.current = some v) (hn : v.number = n) :
    r.unpinned n = { r with current := some v.unpin } := by
  simp only [TableRecord.unpinned, hv, if_pos hn]

section
variable {s : State} {t : TableId} {rest : List TableId} {st : Staged} {w : HeadWork}

theorem State.fillHead_copyStep {n : Nat} (hl : s.workList = t :: rest)
    (hst : (s.table t).staged = some st) (hsub : st.sub = .filling (.copy n)) :
    s.fillHead = s.copyStep t st (s.headWork.getD HeadWork.atFill) := by
  simp only [State.fillHead, hl, hst, hsub]

/-- The first word of a COPY fill comes after the pin (R83, log 27). -/
theorem State.copyStep_pins {v : Version} (hsource : w.source = none)
    (hv : (s.table t).current = some v) :
    s.copyStep t st w = ({ s.setTable t { s.table t with current := some v.pin } with
      headWork := some { w with source := some v.number } } : State).copyOne t st
        { w with source := some v.number } v.number := by
  simp only [State.copyStep, hsource, State.pinCurrent_some hv]

/-- FILL_WORD of a COPY fill whose source is pinned (R83). -/
theorem exec_fillWord_copies {n source : Nat} (hl : s.workList = t :: rest)
    (hst : (s.table t).staged = some st) (hsub : st.sub = .filling (.copy n))
    (hhead : s.headWork = some w ∨ s.headWork = none ∧ w = HeadWork.atFill)
    (hsource : w.source = some source) (hww : s.writeWaits = false) (hg : s.grants .staging = true) :
    exec .fillWord s = .next (s.copyOne t st w source) := by
  rw [exec_fillWord_granted hww hg,
    State.fillHead_copy hl hst hsub (State.headWork_getD hhead) hsource]

/-- A COPY fill that meets a parity error in the CURRENT version it copies (R84). -/
theorem State.failCopy_current {source : Nat} {v : Version} {a : Requestor}
    (hl : s.workList = t :: rest) (hv : (s.table t).current = some v) (hn : v.number = source) :
    let s1 : State := { s with arbiter := a }
    let released := ((s1.parityReport t source (w.offset / 256)).unpin t source).releaseStaged t
    let failed : State :=
      ({ released with workList := s.workList.filter (fun u => u ≠ t), headWork := none } :
        State).tellWriter t st.session (fillDone t st.version.number .parity)
    s1.failCopy t st source w.offset = failed
      ∧ failed.table t = { s.table t with
          staged := none, current := some (v.markParity (w.offset / 256)).unpin }
      ∧ (∀ u, u ≠ t → failed.table u = s.table u)
      ∧ failed = { s.withDirectoryOf failed with
          workList := s.workList.filter (fun u => u ≠ t), headWork := none, arbiter := a } := by
  intro s1 released failed
  have hlist : released.workList = t :: rest := by simp [released, s1, hl]
  have hframe : released = s1.withDirectoryOf released :=
    State.withDirectoryOf_trans (State.withDirectoryOf_trans
      (State.withDirectoryOf_of_records (s1.parityReport_frame ..)) (State.unpin_frame ..))
      (State.releaseStaged_frame ..)
  have hmarked : (s1.parityReport t source (w.offset / 256)).table t
      = { s.table t with current := some (v.markParity (w.offset / 256)) } := by
    rw [State.parityReport_current (s := s1) _ hv hn, State.damageTold_table,
      State.table_setTable_self]
    rfl
  refine ⟨?_, ?_, fun u hu => ?_, State.unlisted_frame hframe _ _ _ _⟩
  · show (released.leaveWorkList t).tellWriter t _ _ = _
    rw [State.leaveWorkList_head hlist, hlist, ← hl]
  · rw [State.tellWriter_table]
    show released.table t = _
    rw [State.releaseStaged_table_self, State.unpin_table_self, hmarked,
      TableRecord.unpinned_current (v := v.markParity (w.offset / 256)) rfl (by exact hn)]
  · rw [State.tellWriter_table]
    show released.table u = _
    rw [State.releaseStaged_table_other _ hu, State.unpin_table_other _ _ hu,
      State.parityReport_table_other _ _ _ hu]
    rfl

end

/-- Settles O38: a word of each kind of fill, the pin of a COPY, its failure, and a turn without a grant. -/
theorem fillWordWritesOneWord : Obligations.FillWordWritesOneWord := by
  refine ⟨?word, ?first, ?fails, fun s h => exec_fillWord_notGranted h⟩
  case word =>
    intro t rest st w a s hl hst hhead ha hww hg stored more last
    have hgetD : s.headWork.getD HeadWork.atFill = w := State.headWork_getD hhead
    have hexec := exec_fillWord_granted hww hg
    have hplain {x : Word} (hfill : s.fillHead = s.fillOne t st w x) (hsource : w.source = none) :
        more x ∧ last x id :=
      ⟨fun h => by rw [hexec, hfill, State.fillOne_goesOn x ha h],
        fun h => by rw [hexec, hfill, State.fillOne_last x hl hst ha h hsource]; rfl⟩
    refine ⟨fun hsub hsource => hplain (hgetD ▸ State.fillHead_zero hl hst hsub) hsource,
      fun x hsub hsource => hplain (hgetD ▸ State.fillHead_value hl hst hsub) hsource,
      fun n v isCurrent source hsub hsource hlookup => ?_⟩
    have hcopy : s.fillHead = s.copyOne t st w source := State.fillHead_copy hl hst hsub hgetD hsource
    have hwrites {x : Word} {b : Requestor}
        (hfill : s.fillHead = ({ s with arbiter := b } : State).fillOne t st w x) :
        more x ∧ last x fun s1 => s1.unpin t source :=
      ⟨fun h => by
          rw [hexec, hfill, State.fillOne_goesOn (s := { s with arbiter := b }) x ha h],
        fun h => by
          rw [hexec, hfill, State.fillOne_last_copy (s := { s with arbiter := b }) x hl hst ha h
            hsource]
          rfl⟩
    refine ⟨fun x hx => hwrites (hcopy.trans (State.copyOne_copied hx)),
      fun hnone hlt hodd => ?_, fun hnone hle =>
        hwrites (hcopy.trans (State.copyOne_past hnone hlookup hle))⟩
    have hgood := hcopy.trans (State.copyOne_good hnone hlookup hlt hodd)
    refine ⟨fun halone => hwrites (hgood.trans (State.writeCopied_alone _ halone)),
      fun hq _ => ?_⟩
    rw [hexec, hgood, State.writeCopied_keeps (s := { s with arbiter := .imageStore }) _ rfl hq]
  case first =>
    intro t rest st n v a s hl hst hsub hhead hv ha hww hg pinned word atStart
    have hpinned (w : HeadWork) : (pinned w).waits = s.waits :=
      funext fun q => State.waits_setTable (s := s) (t := t)
        (r := { s.table t with current := some v.pin }) rfl q
    have hwrites : (pinned atStart).writeWaits = s.writeWaits := by
      unfold State.writeWaits
      rfl
    have hstaged : ((pinned atStart).table t).staged = some st := by
      show ((s.setTable t _).table t).staged = _
      rw [State.table_setTable_self]
      exact hst
    have hgrants : (pinned atStart).grants .staging = s.grants .staging :=
      State.grants_congr rfl fun q _ => congrFun (hpinned atStart) q
    have hexec := exec_fillWord_copies (s := pinned atStart) (w := atStart) hl hstaged hsub
      (.inl rfl) rfl (hwrites.trans hww) (hgrants.trans hg)
    have hlookup : (pinned atStart).lookup t v.number = some (v.pin, true) := by
      refine State.lookup_current ?_ rfl
      show ((s.setTable t _).table t).current = _
      rw [State.table_setTable_self]
      rfl
    have hpins : exec .fillWord s = .next ((pinned atStart).copyOne t st atStart v.number) := by
      have hfill : s.fillHead = (pinned atStart).copyOne t st atStart v.number := by
        rw [State.fillHead_copyStep hl hst hsub, hhead]
        exact State.copyStep_pins rfl hv
      rw [exec_fillWord_granted hww hg, hfill]
    refine ⟨hpins.trans hexec.symm, fun hlen hpos hodd => ?_⟩
    have hgood : exec .fillWord s = .next (({ pinned atStart with arbiter := .imageStore } :
        State).writeCopied t st atStart (valueOf word)) :=
      hpins.trans (congrArg _ (State.copyOne_good (v := v.pin) rfl hlookup hpos hodd))
    have hwaits (q : Requestor) : ({ pinned atStart with arbiter := .imageStore } : State).waits q
        = s.waits q := congrFun (hpinned atStart) q
    refine ⟨fun halone => ?_, fun hq => ?_⟩
    · rw [hgood, State.writeCopied_alone _ fun q h => halone q ((hwaits q).symm.trans h),
        State.fillOne_goesOn _ ha hlen]
      rfl
    · obtain ⟨q, hne, hw⟩ := hq
      rw [hgood, State.writeCopied_keeps (s := { pinned atStart with arbiter := .imageStore }) _ rfl
        ⟨q, hne, (hwaits q).trans hw⟩]
  case fails =>
    intro t rest st n source v w s hl hst hsub hhead hsource hnone hv hn hlt hww hg hodd
    have hfill : s.fillHead
        = ({ s with arbiter := .imageStore } : State).failCopy t st source w.offset := by
      rw [State.fillHead_copy (w := w) hl hst hsub (by rw [hhead]; rfl) hsource,
        State.copyOne_bad hnone (State.lookup_current hv hn) hlt hodd]
    obtain ⟨hfail, hself, hother, hframe⟩ :=
      State.failCopy_current (st := st) (w := w) (a := .imageStore) hl hv hn
    refine ⟨_, (exec_fillWord_granted hww hg).trans (congrArg _ (hfill.trans hfail)), ?_, ?_, ?_, ?_,
      hother, ?_, rfl⟩
    · rw [hself]
    · rw [hself]; rfl
    · simp
    · simp
    · rw [State.tellWriter_workList]; exact hframe

end Sys2Proof.Machine

namespace Sys2Proof.Machine

/-! ## The swap -/

section
variable {s : State} {t : TableId} {st : Staged}

theorem State.swap_table_self (hst : (s.table t).staged = some st)
    (hr : (s.table t).retiring = none) :
    (s.swap t).table t = { s.table t with
      current := some st.version, staged := none
      retiring := (s.table t).current.filter (fun v => v.pins ≠ 0) } := by
  rw [swapReplacesTheCurrentVersion s t st hst hr, State.enterEvents_table]
  cases hc : (s.table t).current with
  | none => simp [State.table_setTable_self, hr]
  | some v =>
    by_cases hp : v.pins = 0
    · simp [State.table_setTable_self, hr, hp, Option.filter]
    · simp [State.table_setTable_self, hp, Option.filter]

theorem State.swap_table_other {u : TableId} (hu : u ≠ t) : (s.swap t).table u = s.table u := by
  unfold State.swap
  split
  next st' hst hr =>
    rw [State.enterEvents_table]
    split
    · split
      · exact State.table_setTable_other _ _ _ hu
      · exact State.table_setTable_other _ _ _ hu
    · exact State.table_setTable_other _ _ _ hu
  all_goals rfl

end

theorem State.withDirectoryOf_of_events {a b : State} (h : b = a.withEventsOf b) :
    b = a.withDirectoryOf b := by
  refine State.withDirectoryOf_of_records (h.trans ?_)
  have htables : b.tables = a.tables := (congrArg State.tables h).trans rfl
  rw [State.withRecordsOf, htables]
  rfl

theorem State.tellWriter_withDirectoryOf {a b : State} (h : b = a.withDirectoryOf b) (t : TableId)
    (n : Nat) (e : Event) : b.tellWriter t n e = a.withDirectoryOf (b.tellWriter t n e) :=
  State.withDirectoryOf_trans h (State.withDirectoryOf_of_events (b.tellWriter_frame t n e))

/-! ## SUMMING_WORD -/

section
variable {s : State} {t : TableId} {rest : List TableId} {st : Staged} {w : HeadWork} {limit : Nat}

theorem exec_summingWord_granted (hww : s.writeWaits = false) (hg : s.grants .staging = true) :
    exec .summingWord s = .next s.sumHead := by
  have hgranted : s.headGranted = true := by simp [State.headGranted, hww, hg]
  exact congrArg _ (if_pos hgranted)

theorem exec_summingWord_notGranted (h : s.writeWaits = true ∨ s.grants .staging = false) :
    exec .summingWord s = .next s := by
  have hgranted : ¬s.headGranted = true := by
    rcases h with h | h <;> simp [State.headGranted, h]
  exact congrArg _ (if_neg hgranted)

theorem State.sumHead_summing (hl : s.workList = t :: rest) (hst : (s.table t).staged = some st)
    (hsub : st.sub = .summing limit)
    (hw : s.headWork.getD (HeadWork.atSumming st.version.length) = w) :
    s.sumHead = s.sumOne t st w limit := by
  simp only [State.sumHead, hl, hst, hsub, hw]

theorem State.sumOne_goesOn (hodd : oddOnes (s.versionWord st.version.pages w.offset) = true)
    (h : w.offset + 1 < st.version.length) :
    s.sumOne t st w limit = { s with
      arbiter := .imageStore
      headWork := some { w with
        offset := w.offset + 1
        check := checkFeed w.check (valueOf (s.versionWord st.version.pages w.offset)) } } := by
  simp only [State.sumOne, State.readGranted_eq, hodd, if_true, if_pos h]
  rfl

theorem State.sumOne_ends (hodd : oddOnes (s.versionWord st.version.pages w.offset) = true)
    (h : w.offset + 1 = st.version.length) :
    s.sumOne t st w limit = ({ s with arbiter := .imageStore } : State).endSumming t st limit
      (checkFeed w.check (valueOf (s.versionWord st.version.pages w.offset))) := by
  simp only [State.sumOne, State.readGranted_eq, hodd, if_true,
    if_neg (show ¬w.offset + 1 < st.version.length by omega)]
  rfl

theorem State.sumOne_fails (hodd : oddOnes (s.versionWord st.version.pages w.offset) = false) :
    s.sumOne t st w limit
      = ({ s with arbiter := .imageStore } : State).failSumming t st w.offset := by
  simp only [State.sumOne, State.readGranted_eq, hodd, if_false, reduceCtorEq]
  rfl

section
variable {check : Word} (hl : s.workList = t :: rest) (hst : (s.table t).staged = some st)
include hl hst

/-- A commit whose session has ended is released (R89). -/
theorem State.endSumming_released (h : s.issuingSessionHolds t st = false) :
    s.endSumming t st limit check = ({ s with
      workList := s.workList.filter (fun u => u ≠ t), headWork := none } : State).releaseStaged t := by
  have hlist : (s.releaseStaged t).workList = t :: rest := (s.releaseStaged_workList t).trans hl
  rw [State.endSumming, if_pos h, State.leaveWorkList_head hlist, State.releaseStaged_workList,
    State.releaseStaged_some hst, State.releaseStaged_some (by exact hst)]
  rfl

/-- A commit beside no RETIRING version swaps (R89, R90). -/
theorem State.endSumming_swaps (h : s.issuingSessionHolds t st = true)
    (hr : (s.table t).retiring = none) :
    s.endSumming t st limit check = ((({ s with
      workList := s.workList.filter (fun u => u ≠ t), headWork := none } : State).setTable t
        { s.table t with staged := some { st with version := { st.version with check := some check } } }
          ).swap t).tellWriter t st.session (commitDone t st.version.number .ok) := by
  have hends : s.endSumming t st limit check
      = ((s.leaveWorkList t).setStagedCheck t (some check)).swapCommitted t st := by
    rw [State.endSumming, if_neg (by rw [h]; exact Bool.noConfusion)]
    simp only [hr]
  rw [hends, State.leaveWorkList_head hl, State.setStagedCheck_some (some check) (by exact hst)]
  rfl

/-- Beside a RETIRING version a commit without a hold limit is OPEN again (R89). -/
theorem State.endSumming_busy {x : Version} (h : s.issuingSessionHolds t st = true)
    (hr : (s.table t).retiring = some x) :
    s.endSumming t st 0 check = (({ s with
      workList := s.workList.filter (fun u => u ≠ t), headWork := none } : State).setTable t
        { s.table t with staged := some { st with sub := .opened } }).tellWriter t st.session
          (commitDone t st.version.number .retireBusy) := by
  have hends : s.endSumming t st 0 check = ((s.leaveWorkList t).setSub t .opened).tellWriter t
      st.session (commitDone t st.version.number .retireBusy) := by
    rw [State.endSumming, if_neg (by rw [h]; exact Bool.noConfusion)]
    simp only [hr, if_true]
  rw [hends, State.leaveWorkList_head hl, State.setSub_some .opened (by exact hst)]
  rfl

/-- Beside a RETIRING version a commit with a hold limit is HELD (R89). -/
theorem State.endSumming_held {x : Version} (h : s.issuingSessionHolds t st = true)
    (hr : (s.table t).retiring = some x) (h0 : 0 < limit) :
    s.endSumming t st limit check = ({ s with
      workList := s.workList.filter (fun u => u ≠ t), headWork := none } : State).setTable t
        { s.table t with staged := some { st with
            version := { st.version with check := some check }, sub := .held limit } } := by
  have hends : s.endSumming t st limit check
      = ((s.leaveWorkList t).setStagedCheck t (some check)).setSub t (.held limit) := by
    rw [State.endSumming, if_neg (by rw [h]; exact Bool.noConfusion)]
    simp only [hr, if_neg (Nat.pos_iff_ne_zero.mp h0)]
  rw [hends, State.leaveWorkList_head hl, State.setStagedCheck_some (some check) (by exact hst),
    State.setSub_some _ (by rw [State.table_setTable_self]), State.setTable_setTable,
    State.table_setTable_self]
  rfl

end

end

section
variable {s : State} {t : TableId} {rest : List TableId} {st : Staged} {w : HeadWork}

/-- A word of SUMMING with a parity error: report, release, and COMMIT_DONE (R88). -/
theorem State.failSumming_eq {a : Requestor} (hl : s.workList = t :: rest) :
    let s1 : State := { s with arbiter := a }
    let released := (s1.parityReport t st.version.number (w.offset / 256)).releaseStaged t
    let failed : State :=
      ({ released with workList := s.workList.filter (fun u => u ≠ t), headWork := none } :
        State).tellWriter t st.session (commitDone t st.version.number .parity)
    s1.failSumming t st w.offset = failed
      ∧ (∀ u, u ≠ t → failed.table u = s.table u)
      ∧ failed = { s.withDirectoryOf failed with
          workList := s.workList.filter (fun u => u ≠ t), headWork := none, arbiter := a } := by
  intro s1 released failed
  have hlist : released.workList = t :: rest := by simp [released, s1, hl]
  have hframe : released = s1.withDirectoryOf released :=
    State.withDirectoryOf_trans (State.withDirectoryOf_of_records (s1.parityReport_frame ..))
      (State.releaseStaged_frame ..)
  refine ⟨?_, fun u hu => ?_, State.unlisted_frame hframe _ _ _ _⟩
  · show (released.leaveWorkList t).tellWriter t _ _ = _
    rw [State.leaveWorkList_head hlist, hlist, ← hl]
  · rw [State.tellWriter_table]
    show released.table u = _
    rw [State.releaseStaged_table_other _ hu, State.parityReport_table_other _ _ _ hu]
    rfl

/-- The swap of a commit, its entry gone from the list (R89, R90). -/
theorem State.swapUnlisted {l : List TableId} {check : Word} (hr : (s.table t).retiring = none)
    (e : Event) :
    let unlisted : State := { s with workList := l, headWork := none }
    let swapped := ((unlisted.setTable t { s.table t with
        staged := some { st with version := { st.version with check := some check } } }).swap
          t).tellWriter t st.session e
    swapped.table t = { s.table t with
        staged := none, current := some { st.version with check := some check }
        retiring := (s.table t).current.filter (fun v => v.pins ≠ 0) }
      ∧ (∀ u, u ≠ t → swapped.table u = s.table u)
      ∧ swapped = unlisted.withDirectoryOf swapped := by
  intro unlisted swapped
  refine ⟨?_, fun u hu => ?_, ?_⟩
  · rw [State.tellWriter_table, State.swap_table_self (st := { st with
      version := { st.version with check := some check } }) (by rw [State.table_setTable_self])
      (by rw [State.table_setTable_self]; exact hr), State.table_setTable_self]
  · rw [State.tellWriter_table, State.swap_table_other hu, State.table_setTable_other _ _ _ hu]
    rfl
  · exact State.tellWriter_withDirectoryOf (State.withDirectoryOf_trans (b := unlisted.setTable t _)
      rfl (State.swap_frame ..)) _ _ _

/-- A page reported in a STAGED version's faulty set goes to the quarantine list at the release (R12). -/
theorem State.release_reported_staged {page index : Nat} (hst : (s.table t).staged = some st)
    (hc : ∀ v, (s.table t).current = some v → v.number ≠ st.version.number)
    (hr : ∀ v, (s.table t).retiring = some v → v.number ≠ st.version.number) :
    let released := (s.parityReport t st.version.number index).releaseStaged t
    released.table t = { s.table t with staged := none }
      ∧ (st.version.pages[index]? = some page → page ∈ released.quarantine) := by
  intro released
  have hmarked : (s.parityReport t st.version.number index).table t
      = { s.table t with
          staged := some { st with version := st.version.markParity index } } := by
    rw [State.parityReport_staged index hc hr hst rfl, State.damageTold_table,
      State.table_setTable_self]
  refine ⟨?_, fun hpage => ?_⟩
  · rw [State.releaseStaged_table_self, hmarked]
  · have hstaged : ((s.parityReport t st.version.number index).table t).staged
        = some { st with version := st.version.markParity index } := by rw [hmarked]
    have hquarantine : released.quarantine = (s.parityReport t st.version.number index).quarantine
        ++ faultyPages st.version.pages (insertSorted index st.version.faulty) :=
      congrArg State.quarantine (State.releaseStaged_some hstaged)
    rw [hquarantine, faultyPages_eq]
    obtain ⟨hlt, -⟩ := List.getElem?_eq_some_iff.mp hpage
    have hfaulty : index ∈ insertSorted index st.version.faulty :=
      (mem_insertSorted _ _ _).mpr (.inl rfl)
    exact List.mem_append_right _ (List.mem_filterMap.mpr
      ⟨index, List.mem_range.mpr hlt, by rw [if_pos hfaulty, hpage]⟩)

end

/-- Settles O39: a word that goes on, the outcomes of the last word, a parity error, and a turn without a
grant. -/
theorem summingWordEndsInItsOutcome : Obligations.SummingWordEndsInItsOutcome := by
  refine ⟨?_, fun s h => exec_summingWord_notGranted h⟩
  intro t rest st limit w s hl hst hsub hhead hww hg word check holds granted unlisted done
  have hexec : exec .summingWord s = .next (s.sumOne t st w limit) := by
    rw [exec_summingWord_granted hww hg,
      State.sumHead_summing hl hst hsub (State.headWork_getD hhead)]
  have hholds : granted.issuingSessionHolds t st = true ↔ holds :=
    granted.issuingSessionHolds_iff t st
  rw [hexec]
  refine ⟨fun hodd hlt => by rw [State.sumOne_goesOn hodd hlt], fun hodd hlast => ?_, fun hodd => ?_⟩
  · rw [State.sumOne_ends hodd hlast]
    by_cases hh : holds
    · have hsession := hholds.mpr hh
      cases hr : (s.table t).retiring with
      | none =>
        rw [State.endSumming_swaps (s := granted) hl hst hsession hr]
        obtain ⟨hself, hother, hframe⟩ := State.swapUnlisted (s := granted) (st := st)
          (l := s.workList.filter (fun u => u ≠ t)) (check := check) hr (done .ok)
        refine ⟨_, rfl, hframe, hother, fun hn => absurd hh hn, fun _ _ => ⟨?_, ?_, ?_, ?_, rfl⟩,
          fun x _ hx => nomatch hx⟩
        · exact congrArg TableRecord.staged hself
        · exact congrArg TableRecord.current hself
        · intro v hv hpos
          refine (congrArg TableRecord.retiring hself).trans ?_
          show (s.table t).current.filter _ = some v
          rw [hv]
          simp [Option.filter, Nat.pos_iff_ne_zero.mp hpos]
        · intro hzero
          refine (congrArg TableRecord.retiring hself).trans ?_
          show (s.table t).current.filter _ = none
          cases hv : (s.table t).current with
          | none => rfl
          | some v => simp [Option.filter, hzero v hv]
      | some x =>
        obtain h0 | hpos := Nat.eq_zero_or_pos limit
        · subst h0
          rw [State.endSumming_busy (s := granted) hl hst hsession hr]
          refine ⟨_, rfl, State.tellWriter_withDirectoryOf (a := unlisted granted) rfl _ _ _,
            fun u hu => ?_, fun hn => absurd hh hn, fun _ hn => (nomatch hn), fun y _ hy => ?_⟩
          · rw [State.tellWriter_table]
            exact State.table_setTable_other _ _ _ hu
          · rw [State.tellWriter_table, State.table_setTable_self]
            exact ⟨rfl, hr.trans hy, fun _ => ⟨rfl, rfl⟩, fun h => absurd h (Nat.lt_irrefl 0)⟩
        · rw [State.endSumming_held (s := granted) hl hst hsession hr hpos]
          refine ⟨_, rfl, rfl, fun u hu => State.table_setTable_other _ _ _ hu,
            fun hn => absurd hh hn, fun _ hn => (nomatch hn), fun y _ hy => ?_⟩
          rw [State.table_setTable_self]
          exact ⟨rfl, hr.trans hy, fun h => absurd h (Nat.pos_iff_ne_zero.mp hpos),
            fun _ => ⟨rfl, rfl⟩⟩
    · have hsession : granted.issuingSessionHolds t st = false := by
        rw [← Bool.not_eq_true]
        exact fun h => hh (hholds.mp h)
      rw [State.endSumming_released (s := granted) hl hst hsession]
      refine ⟨_, rfl, State.releaseStaged_frame (unlisted granted) t,
        fun u hu => State.releaseStaged_table_other (unlisted granted) hu, fun _ => ?_,
        fun h => absurd h hh, fun _ h => absurd h hh⟩
      rw [State.releaseStaged_table_self, State.releaseStaged_some (s := unlisted granted) hst]
      exact ⟨rfl, rfl, rfl, rfl⟩
  · rw [State.sumOne_fails hodd]
    obtain ⟨hfail, hother, hframe⟩ :=
      State.failSumming_eq (st := st) (w := w) (a := .imageStore) hl
    rw [hfail]
    refine ⟨_, rfl, hframe, hother, rfl, fun hc hr => ?_⟩
    have hreleased (page : Nat) := State.release_reported_staged (s := granted) (page := page)
      (index := w.offset / 256) hst hc hr
    rw [State.tellWriter_table, State.tellWriter_quarantine]
    generalize (granted.parityReport t st.version.number (w.offset / 256)).releaseStaged t = released
      at hreleased
    have hself : released.table t = { s.table t with staged := none } := (hreleased 0).1
    show (released.table t).staged = none ∧ (released.table t).current = _
      ∧ (released.table t).retiring = _ ∧ ∀ page, _ → page ∈ released.quarantine
    rw [hself]
    exact ⟨rfl, rfl, rfl, fun page => (hreleased page).2⟩

end Sys2Proof.Machine

namespace Sys2Proof.Machine

/-! ## The newest valid image of a pair -/

theorem TableSlot.validSequence_none {x : TableSlot} (h : x.marker = false) :
    x.validSequence = none := by
  simp [TableSlot.validSequence, h]

theorem TableSlot.validSequence_some {x : TableSlot} {n : Nat}
    (h : x.marker = true ∧ ∃ h, x.header = some h ∧ h.sequence = n) : x.validSequence = some n := by
  obtain ⟨hmarker, header, hheader, rfl⟩ := h
  simp [TableSlot.validSequence, hmarker, hheader]

section
variable {x : TablePair} {m n : Nat}

theorem TablePair.newestValid_none (ha : x.a.validSequence = none) (hb : x.b.validSequence = none) :
    x.newestValid = none := by
  simp only [TablePair.newestValid, ha, hb]

theorem TablePair.newestValid_a (ha : x.a.validSequence = some m) (hb : x.b.validSequence = none) :
    x.newestValid = some (.a, m) := by
  simp only [TablePair.newestValid, ha, hb]

theorem TablePair.newestValid_b (ha : x.a.validSequence = none) (hb : x.b.validSequence = some n) :
    x.newestValid = some (.b, n) := by
  simp only [TablePair.newestValid, ha, hb]

theorem TablePair.newestValid_both (ha : x.a.validSequence = some m)
    (hb : x.b.validSequence = some n) :
    x.newestValid = if m < n then some (.b, n) else some (.a, m) := by
  simp only [TablePair.newestValid, ha, hb]

end

theorem writeTarget_some {newest : SlotName} {n : Nat} (h : n < 4294967295) :
    writeTarget (some (newest, n)) = some (newest.other, n + 1) := if_neg (Nat.not_le.mpr h)

theorem writeTarget_full (newest : SlotName) :
    writeTarget (some (newest, 4294967295)) = none := by
  simp [writeTarget, Config.maxSequence]

/-! ## PERSIST_START -/

theorem State.headStarted_idle {s : State} (h : s.imageWork = .idle) : s.headStarted = false := by
  simp [State.headStarted, h]

theorem State.leaveQueue_cons {s : State} {e : QueueEntry} {rest : List QueueEntry}
    (h : s.imageQueue = e :: rest) :
    s.leaveQueue = { s with imageQueue := rest, imageWork := .idle } := by
  rw [State.leaveQueue, h, List.tail_cons]

section
variable {s : State} {e : QueueEntry} {t : TableId} {v : Version}

theorem State.startPersist_empty (h : (s.table t).current = none) :
    s.startPersist e t = s.endPersist e (persistDone t 0 .empty 0) := by
  simp only [State.startPersist, h]

theorem State.startPersist_damaged (hv : (s.table t).current = some v) (hd : v.damage ≠ .clear) :
    s.startPersist e t = s.endPersist e (persistDone t v.number .damaged 0) := by
  have hdamaged : v.damaged = true := by simp [Version.damaged, hd]
  simp only [State.startPersist, hv, hdamaged, if_true]

/-- The CURRENT version is pinned, and the target is the slot without the newest valid image (R117). -/
theorem State.startPersist_starts {target : SlotName} {n : Nat} (hv : (s.table t).current = some v)
    (hd : v.damage = .clear) (ht : writeTarget (s.pair t).newestValid = some (target, n)) :
    s.startPersist e t = { s.setTable t { s.table t with current := some v.pin } with
      imageWork := .persistErasing
        { table := t, number := v.number, length := v.length, pages := v.pages
          check := v.check, target := target, sequence := n } } := by
  have hdamaged : v.damaged = false := by simp [Version.damaged, hd]
  have ht' : writeTarget ((s.setTable t { s.table t with current := some v.pin }).pair t).newestValid
      = some (target, n) := ht
  unfold State.startPersist
  rw [State.pinCurrent_some hv]
  simp only [hv, hdamaged, ht', if_false, reduceCtorEq]

/-- With the sequence count exhausted the pin is taken back, and the persist ends (R117). -/
theorem State.startPersist_exhausted (hv : (s.table t).current = some v) (hd : v.damage = .clear)
    (ht : writeTarget (s.pair t).newestValid = none) :
    s.startPersist e t = s.endPersist e (persistDone t v.number .writeFailed 0) := by
  have hdamaged : v.damaged = false := by simp [Version.damaged, hd]
  have ht' : writeTarget ((s.setTable t { s.table t with current := some v.pin }).pair t).newestValid
      = none := ht
  have hback := State.unpin_setTable_pinned hv
  unfold State.startPersist
  rw [State.pinCurrent_some hv]
  simp only [hv, hdamaged, ht', if_false, reduceCtorEq]
  rw [hback]

end

/-- Settles O42: EMPTY, DAMAGED, and the target by what the pair's two slots hold. -/
theorem persistStartChoosesTheTarget : Obligations.PersistStartChoosesTheTarget := by
  refine ⟨fun s h => congrArg _ (if_pos (.inr h)), ?_⟩
  intro e rest t s hq hop hidle hsupply ended sequence started
  have hexec : exec .persistStart s = .next (s.startPersist e t) := by
    have hgoes : ¬(s.headStarted = true ∨ s.supply = .low) := by
      rw [State.headStarted_idle hidle, hsupply]
      decide
    show Host.Outcome.next s.persistStart = _
    rw [State.persistStart, if_neg hgoes]
    simp only [hq, hop]
  have hended {version : Nat} {result : Status}
      (h : s.startPersist e t = s.endPersist e (persistDone t version result 0)) :
      exec .persistStart s = .next (ended version result) := by
    have hidle' : ({ s with imageQueue := rest, imageWork := .idle } : State)
        = { s with imageQueue := rest } := by rw [← hidle]
    rw [hexec, h, State.endPersist, State.leaveQueue_cons hq, hidle']
    rfl
  refine ⟨fun h => hended (State.startPersist_empty h), fun v hv => ⟨fun hd =>
    hended (State.startPersist_damaged hv hd), fun hd => ?_⟩⟩
  have hstarts {newest : SlotName} {m : Nat} (h : (s.pair t).newestValid = some (newest, m))
      (hm : m < 4294967295) : started v newest.other (m + 1) :=
    hexec.trans (congrArg _ (State.startPersist_starts hv hd (by rw [h, writeTarget_some hm])))
  refine ⟨fun ha hb => ?_, fun m ha hb hm => ?_, fun n ha hb hn => ?_, fun m n ha hb =>
    ⟨fun hle hm => ?_, fun hlt hn => ?_⟩, fun m ha hb hm => ?_⟩
  · refine hexec.trans (congrArg _ (State.startPersist_starts hv hd ?_))
    rw [TablePair.newestValid_none (TableSlot.validSequence_none ha)
      (TableSlot.validSequence_none hb)]
    rfl
  · exact hstarts (TablePair.newestValid_a (TableSlot.validSequence_some ha)
      (TableSlot.validSequence_none hb)) hm
  · exact hstarts (TablePair.newestValid_b (TableSlot.validSequence_none ha)
      (TableSlot.validSequence_some hb)) hn
  · exact hstarts ((TablePair.newestValid_both (TableSlot.validSequence_some ha)
      (TableSlot.validSequence_some hb)).trans (if_neg (Nat.not_lt.mpr hle))) hm
  · exact hstarts ((TablePair.newestValid_both (TableSlot.validSequence_some ha)
      (TableSlot.validSequence_some hb)).trans (if_pos hlt)) hn
  · subst hm
    refine hended (State.startPersist_exhausted hv hd ?_)
    rw [TablePair.newestValid_a (TableSlot.validSequence_some ha)
      (TableSlot.validSequence_none hb), writeTarget_full]

/-! ## The persist in flight -/

/-- A persist ends: unpin, the entry leaves, PERSIST_DONE (R118, R122). -/
theorem State.finishPersist_cons {s : State} {e : QueueEntry} {rest : List QueueEntry}
    (h : s.imageQueue = e :: rest) (job : PersistJob) (result : Status) (extra : Nat) :
    s.finishPersist job result extra
      = ({ s.unpin job.table job.number with imageQueue := rest, imageWork := .idle } :
          State).enterEvent e.port (some e.session)
        (persistDone job.table job.number result extra) := by
  have hq : (s.unpin job.table job.number).imageQueue = e :: rest := by
    rw [State.unpin_imageQueue, h]
  simp only [State.finishPersist, h]
  rw [State.endPersist, State.leaveQueue_cons hq]

/-- Settles O43: erase, words and marking, each with its verify; a word is read only when granted. -/
theorem persistWritesTheTarget : Obligations.PersistWritesTheTarget := by
  intro e rest job s hq slot withSlot ended erased
  have hended (s1 : State) (h1 : s1.imageQueue = e :: rest) (result : Status) (extra : Nat) :
      s1.finishPersist job result extra = ended s1 result extra :=
    State.finishPersist_cons h1 job result extra
  refine ⟨fun hw => ?_, fun offset hw => ?_, fun hw c hc => ?_⟩
  · have herase (verified : Bool) : exec (.persistErase verified) s
        = .next (if verified then { withSlot erased with imageWork := .persistProgramming job 0 }
          else (withSlot erased).finishPersist job .writeFailed 0) := by
      show Host.Outcome.next (s.persistErase verified) = _
      simp only [State.persistErase, hw]
      rfl
    refine ⟨herase true, (herase false).trans (congrArg _ ?_)⟩
    exact hended (withSlot erased) hq _ _
  · intro word programmed
    have hexec (verified : Bool) (hg : s.grants .imageStore = true) :
        exec (.persistProgramWord verified) s = .next (s.programOne job offset verified) := by
      show Host.Outcome.next (s.persistProgramWord verified) = _
      simp only [State.persistProgramWord, hw, hg, if_true]
    refine ⟨fun hg hodd => ?_, fun verified hg hodd => ?_, fun verified hg => ?_⟩
    · replace hodd : oddOnes (s.versionWord job.pages offset) = true := hodd
      have hprogram (verified : Bool) : s.programOne job offset verified
          = if verified then { programmed with
              imageWork := if offset + 1 < job.length then .persistProgramming job (offset + 1)
                else .persistMarking job }
            else programmed.finishPersist job .writeFailed 0 := by
        simp only [State.programOne, State.readGranted_eq, hodd, if_true]
        rfl
      rw [hexec _ hg, hexec _ hg, hprogram, hprogram]
      refine ⟨rfl, congrArg _ ?_⟩
      exact hended programmed hq _ _
    · replace hodd : oddOnes (s.versionWord job.pages offset) = false := hodd
      rw [hexec _ hg]
      simp only [State.programOne, State.readGranted_eq, hodd, if_false, reduceCtorEq]
      refine congrArg _ (hended _ ?_ _ _)
      rw [State.parityReport_imageQueue]
      exact hq
    · show Host.Outcome.next (s.persistProgramWord verified) = _
      simp only [State.persistProgramWord, hw, hg, if_false, reduceCtorEq]
  · intro header
    have hheader : job.header = header := by simp only [PersistJob.header, hc, Option.getD_some, header]
    have hmark (verified : Bool) : exec (.persistMarking verified) s
        = .next (if verified then
            (withSlot { slot with header := some header, marker := verified }).finishPersist job .ok
              (pagesFor job.length)
          else (withSlot { slot with header := some header, marker := verified }).finishPersist job
            .writeFailed 0) := by
      show Host.Outcome.next (s.persistMark verified) = _
      simp only [State.persistMark, hw, hheader]
      rfl
    rw [hmark, hmark, ← pagesFor_eq]
    exact ⟨congrArg _ (hended (withSlot _) hq _ _), congrArg _ (hended (withSlot _) hq _ _)⟩

end Sys2Proof.Machine

namespace Sys2Proof.Machine

/-! ## The STORE read -/

section
variable {x : TablePair} {m n : Nat}

theorem TablePair.candidates_none (ha : x.a.validSequence = none) (hb : x.b.validSequence = none) :
    x.candidates = [] := by
  simp only [TablePair.candidates, ha, hb]

theorem TablePair.candidates_a (ha : x.a.validSequence = some m) (hb : x.b.validSequence = none) :
    x.candidates = [.a] := by
  simp only [TablePair.candidates, ha, hb]

theorem TablePair.candidates_b (ha : x.a.validSequence = none) (hb : x.b.validSequence = some n) :
    x.candidates = [.b] := by
  simp only [TablePair.candidates, ha, hb]

theorem TablePair.candidates_both (ha : x.a.validSequence = some m)
    (hb : x.b.validSequence = some n) :
    x.candidates = if m < n then [.b, .a] else [.a, .b] := by
  simp only [TablePair.candidates, ha, hb]

end

theorem exec_storeReadStart {s : State} {e : QueueEntry} {rest : List QueueEntry} {t : TableId}
    (hq : s.imageQueue = e :: rest) (hop : e.op = .storeRead t) (hidle : s.imageWork = .idle) :
    exec .storeReadStart s = .next { s with imageWork := .selecting t (s.pair t).candidates } := by
  show Host.Outcome.next s.storeReadStart = _
  rw [State.storeReadStart, if_neg (by rw [State.headStarted_idle hidle]; exact Bool.noConfusion)]
  simp only [hq, hop]

/-- A STORE read that fails: the entry leaves, the version is released, FILL_DONE (R124). -/
theorem State.failStoreRead_eq {s : State} {t : TableId} {st : Staged} {e : QueueEntry}
    {rest : List QueueEntry} (hq : s.imageQueue = e :: rest) (hst : (s.table t).staged = some st)
    (result : Status) :
    s.failStoreRead t result
      = (({ s with imageQueue := rest, imageWork := .idle } : State).releaseStaged t).tellWriter t
        st.session (fillDone t st.version.number result) := by
  simp only [State.failStoreRead, hst]
  rw [State.leaveQueue_cons hq]

section
variable {s : State} {t : TableId} {st : Staged} {x : SlotName} {others : List SlotName}

theorem State.slotVerifyRead_none (hw : s.imageWork = .selecting t []) :
    s.slotVerifyRead = s.failStoreRead t .noImage := by
  simp only [State.slotVerifyRead, hw]

theorem State.slotVerifyRead_bad (hw : s.imageWork = .selecting t (x :: others))
    (hh : ((s.pair t).slot x).goodHeader t = none) :
    s.slotVerifyRead = if others.isEmpty then s.failStoreRead t .badImage
      else { s with imageWork := .selecting t others } := by
  simp only [State.slotVerifyRead, hw, hh]

theorem State.slotVerifyRead_good {h : TableHeader} (hw : s.imageWork = .selecting t (x :: others))
    (hh : ((s.pair t).slot x).goodHeader t = some h) (hst : (s.table t).staged = some st)
    (hsub : st.sub = .filling .store) (hpages : st.version.pages = []) :
    s.slotVerifyRead = s.beginStoreRead t st x h := by
  have hawaits : st.awaitsStore = true := by simp [Staged.awaitsStore, hsub, hpages]
  simp only [State.slotVerifyRead, hw, hh, hst, hawaits, if_true]

theorem State.beginStoreRead_tooLong {h : TableHeader}
    (hlong : (s.table t).entry.maxPages * 256 < h.length) :
    s.beginStoreRead t st x h = s.failStoreRead t .tooLong := if_pos hlong

theorem State.beginStoreRead_noSpace {h : TableHeader}
    (hfits : h.length ≤ (s.table t).entry.maxPages * 256)
    (hshort : s.freePool.length < pagesFor h.length) :
    s.beginStoreRead t st x h = s.failStoreRead t .noSpace := by
  have hnot : ¬(s.table t).entry.maxPages * Config.pageWords < h.length := Nat.not_lt.mpr hfits
  simp only [State.beginStoreRead, if_neg hnot, State.allocate, if_neg (Nat.not_le.mpr hshort)]

/-- The STAGED version takes its length and pages, and the copy begins (R22, R124). -/
theorem State.beginStoreRead_begins {h : TableHeader}
    (hfits : h.length ≤ (s.table t).entry.maxPages * 256)
    (hfree : pagesFor h.length ≤ s.freePool.length) :
    s.beginStoreRead t st x h = { s.setTable t { s.table t with
        staged := some (st.begun h.length (s.freePool.take (pagesFor h.length))) } with
      freePool := s.freePool.drop (pagesFor h.length)
      imageWork := .reading
        { table := t, slot := x, header := h, offset := 0
          register := checkOfLength h.length } } := by
  have hnot : ¬(s.table t).entry.maxPages * Config.pageWords < h.length := Nat.not_lt.mpr hfits
  rw [State.beginStoreRead, if_neg hnot, State.allocate, if_pos hfree]
  exact rfl

end

/-- Settles O44: the order of the valid slots, and what one verify read decides. -/
theorem storeReadSelectsTheImage : Obligations.StoreReadSelectsTheImage := by
  constructor
  · intro e rest t s hq hop hidle sequence started
    have hstarted {order : List SlotName} (h : (s.pair t).candidates = order) : started order := by
      rw [← h]
      exact exec_storeReadStart hq hop hidle
    refine ⟨hstarted rfl, fun ha hb => ?_, fun m ha hb => ?_, fun n ha hb => ?_, fun m n ha hb =>
      ⟨fun hle => ?_, fun hlt => ?_⟩⟩ <;> refine hstarted ?_
    · exact TablePair.candidates_none (TableSlot.validSequence_none ha)
        (TableSlot.validSequence_none hb)
    · exact TablePair.candidates_a (TableSlot.validSequence_some ha)
        (TableSlot.validSequence_none hb)
    · exact TablePair.candidates_b (TableSlot.validSequence_none ha)
        (TableSlot.validSequence_some hb)
    · exact (TablePair.candidates_both (TableSlot.validSequence_some ha)
        (TableSlot.validSequence_some hb)).trans (if_neg (Nat.not_lt.mpr hle))
    · exact (TablePair.candidates_both (TableSlot.validSequence_some ha)
        (TableSlot.validSequence_some hb)).trans (if_pos hlt)
  · intro e rest t st s hq hst hsub hpages failed
    have hfailed {result : Status} (h : s.slotVerifyRead = s.failStoreRead t result) :
        failed result := congrArg _ (h.trans (State.failStoreRead_eq hq hst result))
    refine ⟨fun hw => hfailed (State.slotVerifyRead_none hw), fun x others hw => ⟨fun hh ho => ?_,
      fun hh ho => ?_, fun h hh => ⟨fun hlong => ?_, fun hfits hshort => ?_, fun hfits hfree => ?_⟩⟩⟩
    · exact hfailed ((State.slotVerifyRead_bad hw hh).trans (if_pos (by rw [ho]; rfl)))
    · have hne : ¬others.isEmpty = true := by simpa using ho
      exact congrArg _ ((State.slotVerifyRead_bad hw hh).trans (if_neg hne))
    · exact hfailed ((State.slotVerifyRead_good hw hh hst hsub hpages).trans
        (State.beginStoreRead_tooLong hlong))
    · refine hfailed ((State.slotVerifyRead_good hw hh hst hsub hpages).trans
        (State.beginStoreRead_noSpace hfits (by rw [pagesFor_eq]; exact hshort)))
    · refine congrArg _ ((State.slotVerifyRead_good hw hh hst hsub hpages).trans
        ((State.beginStoreRead_begins hfits (by rw [pagesFor_eq]; exact hfree)).trans ?_))
      rw [pagesFor_eq]
      rfl

section
variable {s : State} {job : StoreReadJob} {st : Staged} {a : Nat} {w : Word}

/-- One word of a STORE read at its address (R125). -/
theorem State.storeReadOne_eq (ha : wordAddress st.version.pages job.offset = some a) :
    s.storeReadOne job st w =
      let stored : State :=
        { s with mem := Memory.write s.mem a (storedOf w), arbiter := .portEngine 0 }
      if job.offset + 1 < job.header.length then
        { stored with
          imageWork := .reading
            { job with offset := job.offset + 1, register := checkFeed job.register w } }
      else if checkFeed job.register w = job.header.check then stored.completeStoreRead job.table st
      else stored.failStoreRead job.table .badImage := by
  rw [State.storeReadOne, State.writeGranted_eq]
  simp only [ha]
  rfl

end

/-- The word a STORE read gives: the one handed in, or the one the slot holds (log 22, 23). -/
theorem TableSlot.word_disturbed {x : TableSlot} {disturbed : Option Word} {offset : Nat} {w : Word}
    (h : disturbed = some w ∨ disturbed = none ∧ x.data[offset]? = some w) :
    disturbed.getD (x.word offset) = w := by
  rcases h with h | ⟨h, hw⟩
  · rw [h]; rfl
  · rw [h, Option.getD_none, TableSlot.word, hw, Option.getD_some]

/-- Settles O45: a word that goes on, the two ends, and a turn without a grant. -/
theorem storeReadCopiesTheImage : Obligations.StoreReadCopiesTheImage := by
  intro e rest job st w a disturbed s hq hw hst ha hword stored done
  refine ⟨fun hg => ?_, fun hg => ?_⟩
  · show Host.Outcome.next (s.storeReadWord disturbed) = _
    simp only [State.storeReadWord, hw, hst, hg, if_false, reduceCtorEq]
  · have hexec : exec (.storeReadWord disturbed) s = .next (s.storeReadOne job st w) := by
      show Host.Outcome.next (s.storeReadWord disturbed) = _
      simp only [State.storeReadWord, hw, hst, hg, if_true, TableSlot.word_disturbed hword]
    rw [hexec, State.storeReadOne_eq ha]
    refine ⟨fun hlt => congrArg _ (if_pos hlt), fun hlast hcheck => congrArg _ ?_,
      fun hlast hcheck => congrArg _ ?_⟩
    · have hdone : stored.completeStoreRead job.table st
          = ({ stored.setTable job.table { s.table job.table with
                staged := some { st with sub := .opened } } with
              imageQueue := rest, imageWork := .idle } : State).tellWriter job.table st.session
            (done .ok) := by
        rw [State.completeStoreRead, State.setSub_some (s := stored) .opened hst,
          State.leaveQueue_cons (by exact hq)]
        rfl
      exact ((if_neg (by omega)).trans (if_pos hcheck)).trans hdone
    · exact ((if_neg (by omega)).trans (if_neg hcheck)).trans
        (State.failStoreRead_eq (s := stored) hq hst .badImage)

/-! ## Charter writes -/

section
variable {s : State} {e : QueueEntry} {rest : List QueueEntry} {c : Charter}
  (hq : s.imageQueue = e :: rest) (hop : e.op = .charterWrite c) (hidle : s.imageWork = .idle)
  (hsupply : s.supply = .ok)
include hq hop hidle hsupply

theorem exec_charterWriteStart_starts {target : SlotName} {n : Nat}
    (ht : writeTarget (s.charterSlots.newestGood.map (fun x => (x.1, x.2.2))) = some (target, n)) :
    exec .charterWriteStart s = .next { s with
      imageWork := .charterErasing { record := c, target := target, sequence := n } } := by
  have hgoes : ¬(s.headStarted = true ∨ s.supply = .low) := by
    rw [State.headStarted_idle hidle, hsupply]
    decide
  show Host.Outcome.next s.charterWriteStart = _
  rw [State.charterWriteStart, if_neg hgoes]
  simp only [hq, hop, ht]

theorem exec_charterWriteStart_exhausted
    (ht : writeTarget (s.charterSlots.newestGood.map (fun x => (x.1, x.2.2))) = none) :
    exec .charterWriteStart s = .next (s.endCharterWrite false none) := by
  have hgoes : ¬(s.headStarted = true ∨ s.supply = .low) := by
    rw [State.headStarted_idle hidle, hsupply]
    decide
  show Host.Outcome.next s.charterWriteStart = _
  rw [State.charterWriteStart, if_neg hgoes]
  simp only [hq, hop, ht]

end

theorem State.endCharterWrite_cons {s : State} {e : QueueEntry} {rest : List QueueEntry}
    (h : s.imageQueue = e :: rest) (ok : Bool) (n : Option Nat) :
    s.endCharterWrite ok n = { s with
      imageQueue := rest, imageWork := .idle
      charterResults := s.charterResults
        ++ [{ ok := ok, sequence := n, port := e.port, session := e.session }] } := by
  simp only [State.endCharterWrite, h]
  rw [State.leaveQueue_cons h]

theorem State.resultCounts_iff (s : State) (r : CharterResult) : s.resultCounts r = true ↔
    s.part.state = .maintenance ∧ s.part.maintPort = some r.port
      ∧ (s.session r.port).number = r.session := by
  simp [State.resultCounts, and_assoc]

/-- Settles O46: the start, the erase, the completion, and the result at the part controller. -/
theorem charterWriteFillsTheTarget : Obligations.CharterWriteFillsTheTarget := by
  refine ⟨fun s h => congrArg _ (if_pos (.inr h)), ?_, ?_⟩
  · intro e rest c s hq ended started
    have hended (s1 : State) (hq1 : s1.imageQueue = e :: rest)
        (hr : s1.charterResults = s.charterResults) (ok : Bool) (n : Option Nat) :
        s1.endCharterWrite ok n = ended s1 ok n := by
      rw [State.endCharterWrite_cons hq1, hr]
    refine ⟨fun hop hidle hsupply => ⟨fun hnone => ?_, fun x d n hnewest => ⟨fun hn => ?_,
      fun hn => ?_⟩⟩, fun job => ?_⟩
    · exact exec_charterWriteStart_starts hq hop hidle hsupply (by rw [hnone]; rfl)
    · have htarget : writeTarget (s.charterSlots.newestGood.map (fun x => (x.1, x.2.2)))
          = some (x.other, n + 1) := by
        rw [hnewest, Option.map_some, writeTarget_some hn]
      have hexec := exec_charterWriteStart_starts hq hop hidle hsupply htarget
      cases x <;> exact hexec
    · subst hn
      refine (exec_charterWriteStart_exhausted hq hop hidle hsupply ?_).trans
        (congrArg _ (hended s hq rfl _ _))
      rw [hnewest, Option.map_some, writeTarget_full]
    · intro withSlot erased full
      refine ⟨fun hw => ?_, fun hw verified => ?_⟩
      · have herase (verified : Bool) : exec (.charterWriteErase verified) s = .next
            (if verified then { withSlot erased with imageWork := .charterProgramming job }
              else (withSlot erased).endCharterWrite false (some job.sequence)) := by
          show Host.Outcome.next (s.charterWriteErase verified) = _
          simp only [State.charterWriteErase, hw]
          rfl
        exact ⟨herase true, (herase false).trans (congrArg _ (hended (withSlot erased) hq rfl _ _))⟩
      · have hcomplete : exec (.charterWriteCompletion verified) s = .next
            ((withSlot (full verified)).endCharterWrite verified (some job.sequence)) := by
          show Host.Outcome.next (s.charterWriteCompletion verified) = _
          simp only [State.charterWriteCompletion, hw]
          rfl
        exact hcomplete.trans (congrArg _ (hended (withSlot (full verified)) hq rfl _ _))
  · intro r rest s hr
    have htake : s.takeCharterResult = if s.resultCounts r then
        ({ s with charterResults := rest
                  part := { s.part with committed := s.part.committed || r.ok } } : State).enterEvent
          r.port (some r.session) (charterDone r.ok)
      else { s with charterResults := rest } := by
      simp only [State.takeCharterResult, hr]
    refine ⟨fun hm hp hn => ?_, fun hm => ?_⟩
    · exact congrArg _ (htake.trans (if_pos ((s.resultCounts_iff r).mpr ⟨hm, hp, hn⟩)))
    · exact congrArg _ (htake.trans (if_neg fun h => hm ((s.resultCounts_iff r).mp h).1))

end Sys2Proof.Machine

namespace Sys2Proof.Machine

/-! ## Part resets -/

theorem TablePair.slot_setSlot_self (x : TablePair) (name : SlotName) (slot : TableSlot) :
    (x.setSlot name slot).slot name = slot := by
  cases name <;> rfl

theorem TablePair.slot_setSlot_other (x : TablePair) (name : SlotName) (slot : TableSlot) :
    (x.setSlot name slot).slot name.other = x.slot name.other := by
  cases name <;> rfl

theorem CharterPair.slot_setSlot_self (x : CharterPair) (name : SlotName) (slot : CharterSlot) :
    (x.setSlot name slot).slot name = slot := by
  cases name <;> rfl

theorem CharterPair.slot_setSlot_other (x : CharterPair) (name : SlotName) (slot : CharterSlot) :
    (x.setSlot name slot).slot name.other = x.slot name.other := by
  cases name <;> rfl

theorem State.partReset_pair (s : State) (k : ResetKind) (u : TableId) :
    (s.partReset k).pair u = s.abandonImageWork.pair u := rfl

theorem State.partReset_charterSlots (s : State) (k : ResetKind) :
    (s.partReset k).charterSlots = s.abandonImageWork.charterSlots := rfl

theorem State.partReset_store (s : State) (k : ResetKind) :
    (s.partReset k).store = s.abandonImageWork.store := rfl

/-- The slots after a part reset are those of the abandoned operation (R123). -/
theorem State.partReset_slotsAbandoned (s : State) (k : ResetKind) :
    s.SlotsAbandoned (s.partReset k) := by
  have htable (t : TableId) (x : SlotName)
      (h : s.abandonImageWork = s.setTableSlot t x ((s.pair t).slot x).unmarked) :
      (((s.partReset k).pair t).slot x).marker = false
        ∧ ((s.partReset k).pair t).slot x.other = (s.pair t).slot x.other
        ∧ (∀ u, u ≠ t → (s.partReset k).pair u = s.pair u)
        ∧ (s.partReset k).charterSlots = s.charterSlots := by
    simp only [State.partReset_pair, State.partReset_charterSlots, h, State.setTableSlot,
      State.pair_setPair_self, TablePair.slot_setSlot_self, TablePair.slot_setSlot_other]
    exact ⟨rfl, trivial, fun u hu => State.pair_setPair_other _ _ _ hu, rfl⟩
  have hcharter (x : SlotName)
      (h : s.abandonImageWork = s.setCharterSlot x (s.charterSlots.slot x).unmarked) :
      ((s.partReset k).charterSlots.slot x).marker = false
        ∧ (s.partReset k).charterSlots.slot x.other = s.charterSlots.slot x.other
        ∧ (s.partReset k).store = s.store := by
    simp only [State.partReset_store, State.partReset_charterSlots, h, State.setCharterSlot,
      CharterPair.slot_setSlot_self, CharterPair.slot_setSlot_other]
    exact ⟨rfl, trivial, trivial⟩
  have hkept (h : s.abandonImageWork = s) :
      (s.partReset k).store = s.store ∧ (s.partReset k).charterSlots = s.charterSlots := by
    rw [State.partReset_store, State.partReset_charterSlots, h]
    exact ⟨rfl, rfl⟩
  unfold State.SlotsAbandoned
  cases hw : s.imageWork with
  | persistErasing job => exact htable _ _ (by simp only [State.abandonImageWork, hw])
  | persistProgramming job offset => exact htable _ _ (by simp only [State.abandonImageWork, hw])
  | persistMarking job => exact htable _ _ (by simp only [State.abandonImageWork, hw])
  | charterErasing job => exact hcharter _ (by simp only [State.abandonImageWork, hw])
  | charterProgramming job => exact hcharter _ (by simp only [State.abandonImageWork, hw])
  | idle => exact hkept (by simp only [State.abandonImageWork, hw])
  | selecting t order => exact hkept (by simp only [State.abandonImageWork, hw])
  | reading job => exact hkept (by simp only [State.abandonImageWork, hw])

theorem Session.atReset_mask (x : Session) (k : ResetKind) : (x.atReset k).mask = 0xFF := by
  cases k <;> rfl

theorem PartController.atReset_left (x : PartController) (k : ResetKind) :
    (x.atReset k).maintPort = none ∧ (x.atReset k).working = none
      ∧ (x.atReset k).committed = false := by
  cases k <;> exact ⟨rfl, rfl, rfl⟩

/-- What every part reset leaves. -/
theorem State.partReset_volatileCleared (s : State) (k : ResetKind) :
    s.VolatileCleared (s.partReset k) := by
  obtain ⟨hport, hworking, hcommitted⟩ := s.part.atReset_left k
  refine ⟨s.partReset_pending k, hport, hworking, hcommitted, rfl, rfl, rfl, fun u => ?_,
    s.partReset_cursor k, s.partReset_stack k, s.partReset_queue k, s.partReset_endsOf k, rfl, rfl,
    rfl, rfl, rfl, rfl, rfl, rfl, fun p => ?_, fun p => ?_, s.partReset_slotsAbandoned k⟩
  · rw [State.partReset_table]
    obtain ⟨hc, hs, hr⟩ := (s.table u).atReset_vacant k
    exact ⟨hc, hs, hr⟩
  · rw [State.partReset_engine]
    exact ⟨rfl, rfl, rfl, rfl⟩
  · rw [State.partReset_session]
    obtain ⟨ho, ht⟩ := (s.session p).atReset_closed k
    exact ⟨ho, ht, Session.atReset_mask _ _⟩

/-- Every part reset but power-on keeps numbers and periods, and records its cause (R144). -/
theorem State.partReset_sessionsRecorded (s : State) {k : ResetKind} (hk : k ≠ .powerOn) :
    s.SessionsRecorded k.departure (s.partReset k) := by
  intro p
  rw [State.partReset_session]
  cases k with
  | powerOn => exact absurd rfl hk
  | pin | supply | charterRestart => exact ⟨rfl, rfl, rfl⟩

/-- Settles O47: each cause is one part reset, and none in RESET. -/
theorem partResetsClearTheVolatileState : Obligations.PartResetsClearTheVolatileState := by
  refine ⟨fun s => ⟨_, rfl, s.partReset_volatileCleared .powerOn, rfl, fun p => ?_⟩, fun s h => ?_,
    fun s h => ?_, fun s h => ⟨congrArg _ (if_pos h), congrArg _ (if_pos h)⟩⟩
  · rw [State.partReset_session]
    exact ⟨rfl, rfl, rfl⟩
  · exact ⟨_, congrArg Host.Outcome.next (if_neg h), s.partReset_volatileCleared .pin, rfl,
      s.partReset_sessionsRecorded (k := .pin) nofun, rfl⟩
  · exact ⟨_, congrArg Host.Outcome.next (if_neg h), s.partReset_volatileCleared .supply, rfl,
      s.partReset_sessionsRecorded (k := .supply) nofun, rfl⟩

/-! ## LOADING -/

/-- Settles O48: the release from RESET, and the charter that LOADING puts in force. -/
theorem loadingChoosesTheCharter : Obligations.LoadingChoosesTheCharter := by
  refine ⟨fun millivolts s hr hv => ?_, fun s c absent hl hc hchosen => ?_⟩
  · refine ⟨_, congrArg Host.Outcome.next (if_pos ⟨hr, hv⟩), rfl, rfl, fun p => ?_, rfl⟩
    show (mapVector PortEngine.atRelease s.engines)[p] = _
    rw [mapVector_get]
    rfl
  · have hforce : s.charterSlots.inForce = (c, absent) := by
      rcases hchosen with ⟨hnone, rfl, rfl⟩ | ⟨x, d, n, hsome, rfl, rfl⟩
      · simp only [CharterPair.inForce, hnone]
      · simp only [CharterPair.inForce, hsome]
    have hpart : s.selectCharter = { s with
        tables := mapVector TableRecord.fresh c.tables
        part := { s.part with charter := c, charterAbsent := absent, loading := .table 0 } } := by
      rw [State.selectCharter, if_pos ⟨hl, hc⟩, hforce]
    refine ⟨_, congrArg Host.Outcome.next hpart, rfl, fun u => ?_, rfl⟩
    show (mapVector TableRecord.fresh c.tables)[u] = _
    rw [mapVector_get]
    rfl

/-! ## The end of maintenance -/

/-- Maintenance left without a committed charter (R165, R166). -/
theorem State.leaveMaintenance_eq (s : State) {state : PartState}
    (h : state = if s.part.charterAbsent then .unchartered else .service) :
    s.leaveMaintenance = { s with
      part := { s.part with state := state, maintPort := none, working := none, loading := .idle }
      scrub := { Scrubber.fresh with
        timer := if state = .service ∧ 0 < s.part.charter.scrubPeriod then
          some s.part.charter.scrubPeriod else none } } := by
  subst h
  cases ha : s.part.charterAbsent with
  | true => simp [State.leaveMaintenance, State.enterService, ha, Scrubber.fresh]
  | false => simp [State.leaveMaintenance, State.enterService, ha, Scrubber.atService]

theorem State.leaseRenewed_departure (s : State) (p q : Port) :
    ((s.leaseRenewed p).session q).departure = (s.session q).departure
      ∧ ((s.leaseRenewed p).session q).leasePeriod = (s.session q).leasePeriod := by
  by_cases hq : q = p
  · subst hq
    rw [State.leaseRenewed_session]
    exact ⟨rfl, rfl⟩
  · rw [State.leaseRenewed_session_other s hq]
    exact ⟨rfl, rfl⟩

/-- A charter restart after the lease has been renewed records what it would have before. -/
theorem State.sessionsRecorded_leaseRenewed {s t : State} {p : Port} {cause : Departure}
    (h : (s.leaseRenewed p).SessionsRecorded cause t) : s.SessionsRecorded cause t := by
  intro q
  obtain ⟨hnumber, hperiod, hdeparture⟩ := h q
  obtain ⟨hd, hl⟩ := s.leaseRenewed_departure p q
  rw [State.leaseRenewed_number] at hnumber
  rw [hl] at hperiod
  rw [hd, State.leaseRenewed_isOpen] at hdeparture
  exact ⟨hnumber, hperiod, hdeparture⟩

/-- Settles O53: the restart, the refusals, and the return to SERVICE or UNCHARTERED. -/
theorem maintenanceEndsByItsFlags : Obligations.MaintenanceEndsByItsFlags := by
  unfold Obligations.MaintenanceEndsByItsFlags
  intro restarted left
  refine ⟨fun p tag c s hasks hadmits hm => ?_, fun p s hend => ⟨fun hc => ?_, fun hc => ?_⟩⟩
  · intro waiting
    have howner := withWorkingCopy_maintains hm fun _ s =>
      if s.imageQueue.any (·.isCharterWrite) ∨ s.charterResults ≠ [] then refusing s .imageBusy
      else if s.part.committed then (s.charterRestart, none)
      else if s.part.charterAbsent then refusing s .noCharter
      else answering s.leaveMaintenance (replyOk [])
    have hanswers {u : State} {reply : Reply}
        (h : maintExitOwner p (s.leaseRenewed p) = (u, some reply)) :
        exec (.maintExit p) s = .next (u.respond p tag reply) :=
      congrArg _ (State.serve_admitted hasks hadmits h)
    refine ⟨fun hw => ?_, fun hw hc => ⟨(s.leaseRenewed p).charterRestart, ?_, ?_⟩,
      fun hw hc ha => ?_, fun hw hc ha => ?_⟩
    · exact hanswers (howner.trans (if_pos hw))
    · exact congrArg Host.Outcome.next (State.serve_waits hasks hadmits
        (howner.trans ((if_neg hw).trans (if_pos hc))))
    · exact ⟨(s.leaseRenewed p).partReset_volatileCleared .charterRestart,
        State.sessionsRecorded_leaseRenewed
          ((s.leaseRenewed p).partReset_sessionsRecorded (k := .charterRestart) nofun), rfl, rfl⟩
    · have hcommitted : ¬(s.leaseRenewed p).part.committed = true := by
        rw [show (s.leaseRenewed p).part.committed = false from hc]
        exact Bool.false_ne_true
      exact hanswers (howner.trans ((if_neg hw).trans ((if_neg hcommitted).trans (if_pos ha))))
    · have hcommitted : ¬(s.leaseRenewed p).part.committed = true := by
        rw [show (s.leaseRenewed p).part.committed = false from hc]
        exact Bool.false_ne_true
      have habsent : ¬(s.leaseRenewed p).part.charterAbsent = true := by
        rw [show (s.leaseRenewed p).part.charterAbsent = false from ha]
        exact Bool.false_ne_true
      refine hanswers (howner.trans ((if_neg hw).trans ((if_neg hcommitted).trans
        ((if_neg habsent).trans ?_))))
      rw [State.leaveMaintenance_eq (s.leaseRenewed p) (state := .service)
        (by rw [if_neg habsent])]
      rfl
  · refine ⟨s.charterRestart, congrArg Host.Outcome.next ((if_pos hend).trans (if_pos hc)),
      s.partReset_volatileCleared .charterRestart,
      s.partReset_sessionsRecorded (k := .charterRestart) nofun, rfl, rfl⟩
  · have hcommitted : ¬s.part.committed = true := by
      rw [hc]
      exact Bool.false_ne_true
    have hleave := (s.takeEnd p .partController).leaveMaintenance_eq (state :=
      if s.part.charterAbsent then .unchartered else .service) rfl
    exact congrArg Host.Outcome.next
      ((if_pos hend).trans ((if_neg hcommitted).trans hleave))

end Sys2Proof.Machine

namespace Sys2Proof.Machine

/-! ## The image that LOADING chooses -/

theorem TablePair.firstGood_none {x : TablePair} {t : TableId} {names : List SlotName}
    (h : ∀ y ∈ names, (x.slot y).goodHeader t = none) : x.firstGood t names = none := by
  induction names with
  | nil => rfl
  | cons y ys ih =>
    rw [TablePair.firstGood, h y List.mem_cons_self]
    exact ih fun z hz => h z (List.mem_cons_of_mem _ hz)

theorem TablePair.firstGood_some {x : TablePair} {t : TableId} {before after : List SlotName}
    {y : SlotName} {h : TableHeader} (hbefore : ∀ z ∈ before, (x.slot z).goodHeader t = none)
    (hy : (x.slot y).goodHeader t = some h) :
    x.firstGood t (before ++ y :: after) = some (y, h) := by
  induction before with
  | nil => simp only [List.nil_append, TablePair.firstGood, hy]
  | cons z zs ih =>
    rw [List.cons_append, TablePair.firstGood, hbefore z List.mem_cons_self]
    exact ih fun w hw => hbefore w (List.mem_cons_of_mem _ hw)

/-- A good header is of an image that is not empty and matches its check value (R113). -/
theorem TableSlot.goodHeader_some {x : TableSlot} {t : TableId} {h : TableHeader}
    (hgood : x.goodHeader t = some h) :
    1 ≤ h.length ∧ checkValue h.length (x.words h.length) = h.check := by
  unfold TableSlot.goodHeader at hgood
  split at hgood
  next header _ =>
    split at hgood
    next hconds =>
      cases hgood
      obtain ⟨-, -, hlength, -, hcheck⟩ := hconds
      exact ⟨hlength, hcheck⟩
    next => cases hgood
  next => cases hgood

theorem copyWords_eq (x : TableSlot) (length : Nat) (d : List (Nat × Word)) :
    copyWords x length d = (List.range length).map
      (fun i => ((d.find? (fun y => y.1 = i)).map Prod.snd).getD (x.word i)) := by
  unfold copyWords
  refine List.map_congr_left fun i _ => ?_
  cases d.find? (fun y => y.1 = i) <;> rfl

theorem copyWords_length (x : TableSlot) (length : Nat) (d : List (Nat × Word)) :
    (copyWords x length d).length = length := by
  simp [copyWords]

theorem copyWords_undisturbed (x : TableSlot) (length : Nat) : copyWords x length [] = x.words length :=
  rfl

/-! ## Pages taken and given back -/

theorem soundPages_nil_faulty (pages : List Nat) : soundPages pages [] = pages := by
  simp [soundPages]

theorem faultyPages_nil_faulty (pages : List Nat) : faultyPages pages [] = [] := by
  simp [faultyPages]

/-- The lowest free pages taken and given back: the pool is as it was. -/
theorem freePool_taken_released {pool : List Nat} (n : Nat) (h : pool.Pairwise (· < ·)) :
    (pool.take n).foldl (fun l x => insertSorted x l) (pool.drop n) = pool := by
  have hperm : (pool.drop n ++ pool.take n).Perm pool :=
    List.perm_append_comm.trans (List.Perm.of_eq (List.take_append_drop n pool))
  have hnodup : (pool.drop n ++ pool.take n).Nodup :=
    hperm.nodup_iff.mpr (h.imp fun hlt => Nat.ne_of_lt hlt)
  obtain ⟨hfold, hsorted⟩ := foldl_insertSorted (pool.take n) (pool.drop n) hnodup
  exact (hfold.trans hperm).eq_of_pairwise (fun a b _ _ hab hba => absurd hab (Nat.lt_asymm hba))
    (hsorted (h.sublist (List.drop_sublist n pool))) h

/-! ## LOAD_TABLE -/

/-- After a table id comes the next, and after 31 SERVICE or UNCHARTERED (R128, R129). -/
theorem State.loadNext_eq (s : State) (t : TableId) : s.loadNext t =
    if t.val = 31 then
      if s.part.charterAbsent then
        { s with
          scrub := Scrubber.fresh
          part := { s.part with state := .unchartered, loading := .idle } }
      else
        { s with
          scrub := { Scrubber.fresh with
            timer := if 0 < s.part.charter.scrubPeriod then some s.part.charter.scrubPeriod
              else none }
          part := { s.part with state := .service, loading := .idle } }
    else { s with part := { s.part with loading := .table (t + 1) } } := by
  unfold State.loadNext
  by_cases h : t.val + 1 < 32
  · have hnext : (⟨t.val + 1, h⟩ : TableId) = t + 1 := by
      apply Fin.ext
      rw [Fin.val_add]
      exact (Nat.mod_eq_of_lt h).symm
    rw [dif_pos h, if_neg (by omega), hnext]
  · rw [dif_neg h, if_pos (by omega)]
    rfl

section
variable {s : State} {t : TableId}

theorem State.loadOne_notPersistent (d : List (Nat × Word))
    (h : (s.table t).entry.defined = false ∨ (s.table t).entry.persistent = false) :
    s.loadOne t d = s.loadFailed t .notPersistent := if_pos h

variable (hdef : (s.table t).entry.defined = true) (hpers : (s.table t).entry.persistent = true)
include hdef hpers

theorem State.loadOne_noImage (d : List (Nat × Word)) (h : (s.pair t).candidates = []) :
    s.loadOne t d = s.loadFailed t .noImage := by
  simp [State.loadOne, hdef, hpers, h]

theorem State.loadOne_badImage (d : List (Nat × Word)) (hne : (s.pair t).candidates ≠ [])
    (h : (s.pair t).firstGood t (s.pair t).candidates = none) :
    s.loadOne t d = s.loadFailed t .badImage := by
  simp [State.loadOne, hdef, hpers, hne, h]

variable {x : SlotName} {h : TableHeader} (hne : (s.pair t).candidates ≠ [])
  (hgood : (s.pair t).firstGood t (s.pair t).candidates = some (x, h))
include hne hgood

theorem State.loadOne_tooLong (d : List (Nat × Word))
    (hlong : (s.table t).entry.maxPages * 256 < h.length) :
    s.loadOne t d = s.loadFailed t .tooLong := by
  simp [State.loadOne, hdef, hpers, hne, hgood, Config.pageWords, hlong]

theorem State.loadOne_noSpace (d : List (Nat × Word))
    (hfits : h.length ≤ (s.table t).entry.maxPages * 256)
    (hshort : s.freePool.length < pagesFor h.length) :
    s.loadOne t d = s.loadFailed t .noSpace := by
  simp [State.loadOne, hdef, hpers, hne, hgood, Config.pageWords, Nat.not_lt.mpr hfits,
    State.allocate, Nat.not_le.mpr hshort]

/-- The chosen image is copied into the lowest free pages (R128). -/
theorem State.loadOne_copies (d : List (Nat × Word))
    (hfits : h.length ≤ (s.table t).entry.maxPages * 256)
    (hfree : pagesFor h.length ≤ s.freePool.length) :
    s.loadOne t d = ({ s with freePool := s.freePool.drop (pagesFor h.length) } : State).copyImage t h
      (s.freePool.take (pagesFor h.length)) (copyWords ((s.pair t).slot x) h.length d) := by
  simp [State.loadOne, hdef, hpers, hne, hgood, Config.pageWords, Nat.not_lt.mpr hfits,
    State.allocate, hfree]

end

/-- What the words of a copy change, written where no other requestor waits (R128). -/
theorem State.writeWords_copy {s : State} {pages : List Nat} {words : List Word} (hne : words ≠ []) :
    let written := s.writeWords .imageStore pages 0 words
    written = { s with mem := written.mem, arbiter := .portEngine 0 }
      ∧ (∀ a, (∀ i, i < words.length → wordAddress pages i ≠ some a) →
          Memory.read written.mem a = Memory.read s.mem a)
      ∧ (pages.Nodup → ∀ (i : Nat) (w : Word) (a : Nat), words[i]? = some w →
          wordAddress pages i = some a → Memory.read written.mem a = some (storedOf w)) := by
  intro written
  refine ⟨?_, fun a ha => ?_, fun hn i w a hw ha => ?_⟩
  · have hframe := s.writeWords_frame .imageStore pages 0 words
    rw [if_neg hne] at hframe
    exact hframe
  · exact State.writeWords_other s .imageStore pages 0 words
      fun i hi => by rw [Nat.zero_add]; exact ha i hi
  · exact State.writeWords_self s .imageStore pages 0 words hn hw (by rw [Nat.zero_add]; exact ha)

/-- A copy that matches its header becomes the CURRENT version (R21, R128). -/
theorem State.copyImage_matches {s : State} {t : TableId} {h : TableHeader} {pages : List Nat}
    {words : List Word} (hc : checkValue h.length words = h.check) :
    s.copyImage t h pages words
      = (s.writeWords .imageStore pages 0 words).setTable t
        { (s.writeWords .imageStore pages 0 words).table t with
          current := some (h.loadedVersion pages), nextVersion := nextNumber h.version
          loadResult := .loaded } := if_pos hc

theorem State.copyImage_differs {s : State} {t : TableId} {h : TableHeader} {pages : List Nat}
    {words : List Word} (hc : checkValue h.length words ≠ h.check) :
    s.copyImage t h pages words
      = ((s.writeWords .imageStore pages 0 words).releasePages pages []).loadFailed t .badImage :=
  if_neg hc

/-- Settles O49: each result of one table id, and the next id after it. -/
theorem loadTableEndsInItsResult : Obligations.LoadTableEndsInItsResult := by
  intro t s hstate hloading r next failed
  have hexec (d : List (Nat × Word)) (s1 : State) (h : s.loadOne t d = s1) :
      exec (.loadTable d) s = .next (next s1) := by
    have hpart : s1.part = s.part := h ▸ (s.loadOne_table t d).2.2.2
    have hnext : s1.loadNext t = next s1 := by
      rw [State.loadNext_eq, hpart]
    show Host.Outcome.next (s.loadTable d) = _
    simp only [State.loadTable, if_pos hstate, hloading, h, hnext]
  have hfailed {d : List (Nat × Word)} {result : LoadResult}
      (h : s.loadOne t d = s.loadFailed t result) : failed d result := hexec d _ h
  refine ⟨fun d h => hfailed (State.loadOne_notPersistent d h), fun hdef hpers =>
    ⟨fun d h => hfailed (State.loadOne_noImage hdef hpers d h), fun d hne hbad =>
      hfailed (State.loadOne_badImage hdef hpers d hne (TablePair.firstGood_none hbad)),
      fun before x after h hcand hbefore hx => ?_⟩⟩
  intro n
  have hne : (s.pair t).candidates ≠ [] := by rw [hcand]; simp
  have hgood : (s.pair t).firstGood t (s.pair t).candidates = some (x, h) := by
    rw [hcand]; exact TablePair.firstGood_some hbefore hx
  have hn : pagesFor h.length = n := pagesFor_eq _
  refine ⟨fun d hlong => hfailed (State.loadOne_tooLong hdef hpers hne hgood d hlong),
    fun d hfits hshort => hfailed (State.loadOne_noSpace hdef hpers hne hgood d hfits
      (hn.symm ▸ hshort)), fun hfits hfree => ?_⟩
  intro pages copied others
  obtain ⟨hlength, hcheck⟩ := TableSlot.goodHeader_some hx
  have hcopied (d : List (Nat × Word)) : copied d = copyWords ((s.pair t).slot x) h.length d :=
    (copyWords_eq _ _ _).symm
  have hlen (d : List (Nat × Word)) : (copied d).length = h.length := by
    rw [hcopied, copyWords_length]
  have hwords (d : List (Nat × Word)) : copied d ≠ [] := by
    rw [← List.length_pos_iff, hlen]; exact hlength
  have hcopies (d : List (Nat × Word)) : s.loadOne t d
      = ({ s with freePool := s.freePool.drop n } : State).copyImage t h pages (copied d) := by
    rw [State.loadOne_copies hdef hpers hne hgood d hfits (hn.symm ▸ hfree), hn, hcopied]
  refine ⟨fun d hd => ?_, fun d hd hc => ?_⟩
  · have hmatch : checkValue h.length (copied d) = h.check := by
      rcases hd with rfl | hd
      · rw [hcopied, copyWords_undisturbed]; exact hcheck
      · exact hd
    obtain ⟨hframe, hother, hself⟩ := State.writeWords_copy
      (s := { s with freePool := s.freePool.drop n }) (pages := pages) (hwords d)
    have hone := (hcopies d).trans (State.copyImage_matches hmatch)
    generalize ({ s with freePool := s.freePool.drop n } : State).writeWords .imageStore pages 0
      (copied d) = written at hframe hother hself hone
    have htable (u : TableId) : written.table u = s.table u := by rw [hframe]; rfl
    refine ⟨_, hexec d _ hone, ?_, ?_, ?_, fun u hu => ?_, fun hnodup i w a hw ha => ?_,
      fun a ha => ?_, ?_⟩
    · rw [hframe]; rfl
    · rw [hframe]; rfl
    · rw [State.table_setTable_self, htable]; rfl
    · rw [State.table_setTable_other _ _ _ hu, htable]
    · exact hself (hnodup.sublist (List.take_sublist _ _)) i w a hw ha
    · exact hother a fun i hi => ha i (by rw [← hlen d]; exact hi)
    · rw [hframe]; rfl
  · obtain ⟨hframe, hother, -⟩ := State.writeWords_copy
      (s := { s with freePool := s.freePool.drop n }) (pages := pages) (hwords d)
    have hone := (hcopies d).trans (State.copyImage_differs hc)
    generalize ({ s with freePool := s.freePool.drop n } : State).writeWords .imageStore pages 0
      (copied d) = written at hframe hother hone
    rw [State.releasePages, soundPages_nil_faulty, faultyPages_nil_faulty, List.append_nil] at hone
    refine ⟨_, hexec d _ hone, fun hsorted => ?_, ?_, fun a ha => ?_, ?_⟩
    · rw [hframe]
      exact freePool_taken_released n hsorted
    · rw [hframe]; rfl
    · exact hother a fun i hi => ha i (by rw [← hlen d]; exact hi)
    · rw [hframe]; rfl

end Sys2Proof.Machine

namespace Sys2Proof.Machine

/-! ## The scrubber's lookups -/

/-- A table's CURRENT version that the scrubber visits: not DAMAGED (R105). -/
def State.soundCurrent (s : State) (t : TableId) (v : Version) : Prop :=
  (s.table t).current = some v ∧ v.damage = .clear

/-- The visit of a version at its start (R105). -/
def Version.visitAt (v : Version) (t : TableId) : Visit :=
  { table := t, number := v.number, length := v.length, pages := v.pages, check := v.check
    offset := 0, register := checkOfLength v.length }

theorem TableRecord.visit_sound {s : State} {t : TableId} {v : Version} (h : s.soundCurrent t v) :
    (s.table t).visit t = some (v.visitAt t) := by
  obtain ⟨hv, hd⟩ := h
  simp only [TableRecord.visit, hv, if_pos hd]
  rfl

theorem TableRecord.visit_none {s : State} {t : TableId} (h : ∀ v, ¬s.soundCurrent t v) :
    (s.table t).visit t = none := by
  unfold TableRecord.visit
  split
  next v hv => exact if_neg fun hd => h v ⟨hv, hd⟩
  next => rfl

theorem State.firstVisit_none {s : State} {ids : List TableId}
    (h : ∀ u ∈ ids, ∀ v, ¬s.soundCurrent u v) : s.firstVisit ids = none := by
  induction ids with
  | nil => rfl
  | cons u us ih =>
    rw [State.firstVisit, TableRecord.visit_none (h u List.mem_cons_self)]
    exact ih fun w hw => h w (List.mem_cons_of_mem _ hw)

/-- Of ascending ids the first sound one is visited (R105). -/
theorem State.firstVisit_first {s : State} {ids : List TableId} {t : TableId} {v : Version}
    (hids : ids.Pairwise (· < ·)) (ht : t ∈ ids) (hv : s.soundCurrent t v)
    (h : ∀ u ∈ ids, u < t → ∀ w, ¬s.soundCurrent u w) :
    s.firstVisit ids = some (v.visitAt t) := by
  induction ids with
  | nil => cases ht
  | cons u us ih =>
    obtain ⟨hfirst, hrest⟩ := List.pairwise_cons.mp hids
    rcases List.mem_cons.mp ht with rfl | hmem
    · rw [State.firstVisit, TableRecord.visit_sound hv]
    · rw [State.firstVisit, TableRecord.visit_none (h u List.mem_cons_self (hfirst t hmem))]
      exact ih hrest hmem fun w hw => h w (List.mem_cons_of_mem _ hw)

theorem allTables_ascending : allTables.Pairwise (· < ·) := by decide

theorem mem_allTables (t : TableId) : t ∈ allTables := by revert t; decide

theorem State.startPass_first {s : State} {t : TableId} {v : Version} (hv : s.soundCurrent t v)
    (h : ∀ u w, u < t → ¬s.soundCurrent u w) :
    s.startPass = { s with scrub := s.scrub.visiting (v.visitAt t) } := by
  rw [State.startPass, State.firstVisit_first allTables_ascending (mem_allTables t) hv
    fun u _ hu w => h u w hu]

theorem State.startPass_none {s : State} (h : ∀ u w, ¬s.soundCurrent u w) :
    s.startPass = { s with scrub := s.scrub.passEnded } := by
  rw [State.startPass, State.firstVisit_none fun u _ w => h u w]

theorem State.endVisit_next {s : State} {t u : TableId} {v : Version} (htu : t < u)
    (hv : s.soundCurrent u v) (h : ∀ u' w, t < u' → u' < u → ¬s.soundCurrent u' w) :
    s.endVisit t = { s with scrub := s.scrub.visiting (v.visitAt u) } := by
  have hmem : u ∈ allTables.filter (fun u => t < u) :=
    List.mem_filter.mpr ⟨mem_allTables u, by simpa using htu⟩
  rw [State.endVisit, State.firstVisit_first (allTables_ascending.filter _) hmem hv
    fun u' hu' hlt w => h u' w (by simpa using (List.mem_filter.mp hu').2) hlt]

theorem State.endVisit_last {s : State} {t : TableId} (h : ∀ u w, t < u → ¬s.soundCurrent u w) :
    s.endVisit t = if s.scrub.due then
        ({ s with scrub := { s.scrub with due := false } } : State).startPass
      else { s with scrub := s.scrub.passEnded } := by
  rw [State.endVisit, State.firstVisit_none fun u hu w =>
    h u w (by simpa using (List.mem_filter.mp hu).2)]

/-! ## SCRUB_WORD -/

theorem State.visitHolds_sound {s : State} {x : Visit} {v : Version}
    (h : s.soundCurrent x.table v ∧ v.number = x.number) : s.visitHolds x = true := by
  obtain ⟨⟨hv, hd⟩, hn⟩ := h
  simp [State.visitHolds, hv, hd, hn]

theorem State.visitHolds_none {s : State} {x : Visit}
    (h : ∀ w, s.soundCurrent x.table w → w.number ≠ x.number) : s.visitHolds x = false := by
  unfold State.visitHolds
  split
  next c hc =>
    by_cases hd : c.damage = .clear
    · simp [h c ⟨hc, hd⟩]
    · simp [hd]
  next => rfl

/-- Settles O54: the start of a pass, one word of a visit, and what follows a visit that ends. -/
theorem scrubberRereadsSoundVersions : Obligations.ScrubberRereadsSoundVersions := by
  unfold Obligations.ScrubberRereadsSoundVersions
  intro visiting idle sound
  refine ⟨fun period s htimer => ?_, fun x v s hx => ?_, fun t s => ⟨fun u v htu hv h => ?_,
    fun h => ⟨fun hd => ?_, fun hd => ⟨fun u v hv hu => ?_, fun hnone => ?_⟩⟩⟩⟩
  · have hexec : exec .scrubPeriodExpiry s = .next (if s.scrub.running then
        { s with scrub := { s.scrub with due := true } } else s.startPass) := by
      show Host.Outcome.next s.expireScrubPeriod = _
      simp only [State.expireScrubPeriod, htimer]
    rw [hexec]
    refine ⟨fun hr => congrArg _ (if_pos hr), fun t v hr hv h => ?_, fun hr h => ?_⟩
    · rw [if_neg (by rw [hr]; exact Bool.false_ne_true), State.startPass_first hv h]
      rfl
    · rw [if_neg (by rw [hr]; exact Bool.false_ne_true), State.startPass_none h]
      rfl
  · intro word register fed holds
    have hexec : exec .scrubWord s
        = .next (if s.waiting = [] ∧ s.reports = [] then s.scrubOne x else s) := by
      show Host.Outcome.next s.scrubWord = _
      simp only [State.scrubWord, hx]
    rw [hexec]
    refine ⟨fun hw hr => ?_, fun h => congrArg _ (if_neg fun hc => ?_)⟩
    · rw [if_pos ⟨hw, hr⟩]
      have hgood (hh : holds) (hodd : oddOnes word = true) : s.scrubOne x
          = if x.offset + 1 < x.length then fed
            else if x.check = some register then s.endVisit x.table
            else { fed with reports := [.check x.table x.number] } := by
        rw [State.scrubOne_good (State.visitHolds_sound hh) hodd, hr]
        rfl
      refine ⟨fun hh hodd hlt => ?_, fun hh hodd hle hcheck => ?_, fun hh hodd hle hcheck => ?_,
        fun hh hodd => ?_, fun hno => ?_⟩
      · rw [hgood hh hodd, if_pos hlt]
      · rw [hgood hh hodd, if_neg (Nat.not_lt.mpr hle), if_pos hcheck]
      · rw [hgood hh hodd, if_neg (Nat.not_lt.mpr hle), if_neg hcheck]
      · replace hodd : ¬oddOnes (s.versionWord x.pages x.offset) = true := by
          rw [show oddOnes (s.versionWord x.pages x.offset) = false from hodd]
          exact Bool.false_ne_true
        have hbad : s.scrubOne x
            = s.sendReport (.parity x.table x.number (x.offset / Config.pageWords)) :=
          (if_pos (State.visitHolds_sound hh)).trans (if_neg hodd)
        rw [hbad, State.sendReport, hr]
        rfl
      · have hnot : ¬s.visitHolds x = true := by
          rw [State.visitHolds_none hno]
          exact Bool.false_ne_true
        exact congrArg _ (if_neg hnot)
    · rcases h with h | h
      · exact h hc.1
      · exact h hc.2
  · rw [State.endVisit_next htu hv h]
    rfl
  · rw [State.endVisit_last h, if_neg (by rw [hd]; exact Bool.false_ne_true)]
    rfl
  · rw [State.endVisit_last h, if_pos hd,
      State.startPass_first (s := { s with scrub := { s.scrub with due := false } }) hv
        fun u' w hlt => hu u' w hlt]
    rfl
  · rw [State.endVisit_last h, if_pos hd,
      State.startPass_none (s := { s with scrub := { s.scrub with due := false } }) hnone]
    rfl

end Sys2Proof.Machine

namespace Sys2Proof.Machine

/-! ## Pins that a session end takes back -/

/-- The versions of a record after each number n has lost k n pins (R27, R31). -/
def TableRecord.LosesPins (r after : TableRecord) (k : Nat → Nat) : Prop :=
  (∀ v, r.current = some v → after.current = some { v with pins := v.pins - k v.number })
    ∧ (∀ v w, r.current = some v → r.retiring = some w → w.number ≠ v.number →
        k w.number ≤ w.pins → after.retiring =
          if k w.number = 0 then some w
          else if k w.number = w.pins then none
          else some { w with pins := w.pins - k w.number })

theorem TableRecord.losesPins_none (r : TableRecord) : r.LosesPins r fun _ => 0 :=
  ⟨fun _ hv => hv, fun _ _ _ hw _ _ => hw⟩

theorem TableRecord.LosesPins.congr {r after : TableRecord} {k l : Nat → Nat}
    (h : r.LosesPins after k) (hk : ∀ n, k n = l n) : r.LosesPins after l :=
  (funext hk : k = l) ▸ h

theorem TableRecord.unpinned_retiring {r : TableRecord} {n : Nat}
    (hc : ∀ v, r.current = some v → v.number ≠ n) :
    (r.unpinned n).current = r.current
      ∧ (∀ w, r.retiring = some w → (r.unpinned n).retiring =
          if w.number = n then if w.pins - 1 = 0 then none else some w.unpin else some w)
      ∧ (r.retiring = none → (r.unpinned n).retiring = none) := by
  cases hv : r.current with
  | none =>
    cases hw : r.retiring with
    | none => simp [TableRecord.unpinned, hv, hw]
    | some w => by_cases hn : w.number = n <;> simp [TableRecord.unpinned, hv, hw, hn, Version.unpin]
  | some v =>
    have hne := hc v hv
    cases hw : r.retiring with
    | none => simp [TableRecord.unpinned, hv, hw, hne]
    | some w =>
      by_cases hn : w.number = n <;> simp [TableRecord.unpinned, hv, hw, hne, hn, Version.unpin]

/-- One more unpin of version n. -/
theorem TableRecord.LosesPins.unpinned {r after : TableRecord} {k : Nat → Nat}
    (h : r.LosesPins after k) (n : Nat) :
    r.LosesPins (after.unpinned n) fun m => k m + if m = n then 1 else 0 := by
  obtain ⟨hcurrent, hretiring⟩ := h
  refine ⟨fun v hv => ?_, fun v w hv hw hne hle => ?_⟩
  · beta_reduce
    have hafter := hcurrent v hv
    by_cases hn : v.number = n
    · rw [TableRecord.unpinned_current hafter hn, if_pos hn]
      rfl
    · have hkeep := (TableRecord.unpinned_retiring (r := after) (n := n)
        fun v' hv' => by rw [hafter] at hv'; cases hv'; exact hn).1
      rw [hkeep, hafter, if_neg hn]
      rfl
  · beta_reduce at hle ⊢
    have hafter := hcurrent v hv
    by_cases hn : v.number = n
    · have hwn : w.number ≠ n := fun h => hne (h.trans hn.symm)
      rw [if_neg hwn] at hle ⊢
      rw [TableRecord.unpinned_current hafter hn]
      exact hretiring v w hv hw hne hle
    · obtain ⟨-, hsome, hnone⟩ := TableRecord.unpinned_retiring (r := after) (n := n)
        fun v' hv' => by rw [hafter] at hv'; cases hv'; exact hn
      have hold := hretiring v w hv hw hne (by omega)
      by_cases hwn : w.number = n
      · rw [if_pos hwn] at hle ⊢
        have hstands : after.retiring = some { w with pins := w.pins - k w.number } := by
          rw [hold]
          split
          next h0 => rw [h0]; rfl
          next => rw [if_neg (by omega)]
        rw [hsome _ hstands, if_pos hwn, if_neg (Nat.succ_ne_zero _)]
        by_cases hlast : k w.number + 1 = w.pins
        · rw [if_pos hlast, if_pos (by show w.pins - k w.number - 1 = 0; omega)]
        · rw [if_neg hlast, if_neg (by show ¬w.pins - k w.number - 1 = 0; omega)]
          rfl
      · rw [if_neg hwn] at hle ⊢
        rw [Nat.add_zero] at hle ⊢
        rw [← hold]
        cases hr : after.retiring with
        | none => exact hnone hr
        | some w' =>
          rw [hsome w' hr, if_neg]
          rw [hold] at hr
          split at hr
          · cases hr; exact hwn
          · split at hr
            · cases hr
            · cases hr; exact hwn

/-- An unpin of a version of table t, as the record of every table loses pins by it. -/
theorem State.losesPins_unpin {s x : State} {u : TableId} {k : Nat → Nat}
    (h : (s.table u).LosesPins (x.table u) k) (t : TableId) (n : Nat) :
    (s.table u).LosesPins ((x.unpin t n).table u)
      fun m => k m + if t = u ∧ n = m then 1 else 0 := by
  by_cases hu : u = t
  · subst hu
    rw [State.unpin_table_self]
    exact (h.unpinned n).congr fun m => by simp [eq_comm]
  · rw [State.unpin_table_other _ _ hu]
    exact h.congr fun m => by rw [if_neg fun hc => hu hc.1.symm, Nat.add_zero]

/-! ## The cursor file at a session end -/

/-- A state on the way from s in which slots of p have been unbound, each with one unpin (R61). -/
structure State.SlotsUnbound (p : Port) (s x : State) : Prop where
  pins : ∀ u, ∃ k, (s.table u).LosesPins (x.table u) k
    ∧ ∀ n, k n + x.slotsOn p u n = s.slotsOn p u n
  others : ∀ q c, q ≠ p → x.cursor q c = s.cursor q c
  frame : x = { s.withDirectoryOf x with cursors := x.cursors }

theorem State.slotsUnbound_refl (p : Port) (s : State) : State.SlotsUnbound p s s where
  pins _ := ⟨_, TableRecord.losesPins_none _, fun _ => Nat.zero_add _⟩
  others _ _ _ := rfl
  frame := rfl

theorem mem_allSlots : ∀ c : SlotId, c ∈ allSlots := by decide

/-- Two counts over a list without repetition that differ in one element. -/
theorem countP_except {α : Type} {l : List α} {c : α} (hl : l.Nodup) (hc : c ∈ l)
    {f g : α → Bool} (hfg : ∀ d, d ≠ c → g d = f d) (hg : g c = false) :
    l.countP f = l.countP g + if f c = true then 1 else 0 := by
  induction l with
  | nil => cases hc
  | cons y ys ih =>
    obtain ⟨hy, hys⟩ := List.nodup_cons.mp hl
    rw [List.countP_cons, List.countP_cons]
    rcases List.mem_cons.mp hc with rfl | hmem
    · have hrest : ys.countP f = ys.countP g :=
        List.countP_congr fun d hd => by rw [hfg d fun h => hy (h ▸ hd)]
      rw [hrest, hg, if_neg Bool.false_ne_true, Nat.add_zero]
    · have hne : y ≠ c := fun h => hy (h ▸ hmem)
      rw [ih hys hmem, hfg y hne]
      omega

/-- A slot unbound counts one less on the version it held. -/
theorem State.slotsOn_setCursor {s : State} {p : Port} {c : SlotId} {b : Binding}
    (hb : s.cursor p c = some b) (u : TableId) (n : Nat) :
    s.slotsOn p u n = (s.setCursor p c none).slotsOn p u n
      + if b.table = u ∧ b.version = n then 1 else 0 := by
  have hcount := countP_except (l := allSlots) (c := c) (by decide) (mem_allSlots c)
    (f := fun c => (s.cursor p c).any (fun b => b.table = u ∧ b.version = n))
    (g := fun d => ((s.setCursor p c none).cursor p d).any (fun b => b.table = u ∧ b.version = n))
    (fun d hd => by rw [State.cursor_setCursor_slot s p none hd])
    (by rw [State.cursor_setCursor_self]; rfl)
  refine hcount.trans ?_
  rw [hb]
  simp only [Option.any_some, decide_eq_true_eq]
  rfl

theorem State.slotsUnbound_step {p : Port} {s x : State} (h : State.SlotsUnbound p s x)
    (c : SlotId) : State.SlotsUnbound p s (x.unbindSlot p c) := by
  cases hb : x.cursor p c with
  | none =>
    have hstay : x.unbindSlot p c = x := by simp only [State.unbindSlot, hb]
    rwa [hstay]
  | some b =>
    have hstep : x.unbindSlot p c = (x.setCursor p c none).unpin b.table b.version := by
      simp only [State.unbindSlot, hb]
    rw [hstep]
    obtain ⟨hpins, hothers, hframe⟩ := h
    refine ⟨fun u => ?_, fun q d hq => ?_, ?_⟩
    · obtain ⟨k, hk, hcount⟩ := hpins u
      refine ⟨_, State.losesPins_unpin (x := x.setCursor p c none) hk b.table b.version,
        fun n => ?_⟩
      have hslots : ((x.setCursor p c none).unpin b.table b.version).slotsOn p u n
          = (x.setCursor p c none).slotsOn p u n := by
        simp only [State.slotsOn, State.unpin_cursor]
      have hless := State.slotsOn_setCursor hb u n
      rw [hslots, ← hcount n, hless]
      omega
    · rw [State.unpin_cursor, State.cursor_setCursor_port _ _ _ _ hq, hothers q d hq]
    · rw [State.unpin_frame, hframe]
      rfl

theorem State.unbindSlot_none {x : State} {p : Port} {d : SlotId} (h : x.cursor p d = none)
    (c : SlotId) : (x.unbindSlot p c).cursor p d = none := by
  unfold State.unbindSlot
  split
  · rw [State.unpin_cursor]
    by_cases hd : d = c
    · subst hd; exact State.cursor_setCursor_self ..
    · rw [State.cursor_setCursor_slot _ _ _ hd, h]
  · exact h

theorem State.unbindSlot_self (x : State) (p : Port) (c : SlotId) :
    (x.unbindSlot p c).cursor p c = none := by
  unfold State.unbindSlot
  split
  · rw [State.unpin_cursor]
    exact State.cursor_setCursor_self ..
  next hc => exact hc

/-- Slots of p unbound one by one, in any order (R61). -/
theorem State.slotsUnbound_foldl (p : Port) (s : State) (cs : List SlotId) :
    State.SlotsUnbound p s (cs.foldl (fun s c => s.unbindSlot p c) s)
      ∧ ∀ c ∈ cs, (cs.foldl (fun s c => s.unbindSlot p c) s).cursor p c = none := by
  induction cs using List.reverseRecOn with
  | nil => exact ⟨State.slotsUnbound_refl p s, nofun⟩
  | append_singleton cs c ih =>
    obtain ⟨hunbound, hnone⟩ := ih
    rw [List.foldl_append, List.foldl_cons, List.foldl_nil]
    refine ⟨State.slotsUnbound_step hunbound c, fun d hd => ?_⟩
    rcases List.mem_append.mp hd with hd | hd
    · exact State.unbindSlot_none (hnone d hd) c
    · rw [List.mem_singleton.mp hd]
      exact State.unbindSlot_self _ p c

theorem State.slotsOn_unbound {x : State} {p : Port} (h : ∀ c, x.cursor p c = none) (u : TableId)
    (n : Nat) : x.slotsOn p u n = 0 := by
  simp [State.slotsOn, h, allSlots]

/-! ## The save stacks at a session end -/

/-- A state on the way from s in which entries of p's stack have been unpinned (R73). -/
structure State.EntriesUnpinned (p : Port) (s x : State) : Prop where
  pins : ∀ u, ∃ k, (s.table u).LosesPins (x.table u) k
    ∧ ∀ n, k n + x.savedOn p u n = s.savedOn p u n
  depth : (x.stack p).length = (s.stack p).length
  others : ∀ q, q ≠ p → x.stack q = s.stack q
  frame : x = { s.withDirectoryOf x with saveStacks := x.saveStacks }

theorem State.entriesUnpinned_refl (p : Port) (s : State) : State.EntriesUnpinned p s s where
  pins _ := ⟨_, TableRecord.losesPins_none _, fun _ => Nat.zero_add _⟩
  depth := rfl
  others _ _ := rfl
  frame := rfl

/-- An entry cleared counts one less on the version it named. -/
theorem countP_set_none {l : List Context} {i : Nat} {b : Binding} (h : l[i]? = some (some b))
    (f : Binding → Bool) : l.countP (fun x => x.any f)
      = (l.set i none).countP (fun x => x.any f) + if f b = true then 1 else 0 := by
  induction l generalizing i with
  | nil => cases h
  | cons y ys ih =>
    cases i with
    | zero =>
      have hy : y = some b := by simpa using h
      subst hy
      rw [List.set_cons_zero, List.countP_cons, List.countP_cons]
      rfl
    | succ i =>
      rw [List.set_cons_succ, List.countP_cons, List.countP_cons, ih (by simpa using h)]
      omega

theorem State.entriesUnpinned_step {p : Port} {s x : State} (h : State.EntriesUnpinned p s x)
    (i : Nat) : State.EntriesUnpinned p s (x.unpinEntry p i) := by
  unfold State.unpinEntry
  split
  next b hb =>
    obtain ⟨hpins, hdepth, hothers, hframe⟩ := h
    refine ⟨fun u => ?_, ?_, fun q hq => ?_, ?_⟩
    · obtain ⟨k, hk, hcount⟩ := hpins u
      refine ⟨_, State.losesPins_unpin (x := x.setStack p ((x.stack p).set i none)) hk b.table
        b.version, fun n => ?_⟩
      have hless := countP_set_none hb fun b => decide (b.table = u ∧ b.version = n)
      rw [← hcount n]
      unfold State.savedOn
      rw [State.unpin_stack, State.stack_setStack_self, hless]
      simp only [decide_eq_true_eq]
      omega
    · rw [State.unpin_stack, State.stack_setStack_self, List.length_set, hdepth]
    · rw [State.unpin_stack, State.stack_setStack_other _ _ _ hq, hothers q hq]
    · rw [State.unpin_frame, hframe]
      rfl
  · exact h
  · exact h

theorem State.unpinEntry_cleared {x : State} {p : Port} {j : Nat}
    (h : ∀ b, (x.stack p)[j]? ≠ some (some b)) (i : Nat) :
    ∀ b, ((x.unpinEntry p i).stack p)[j]? ≠ some (some b) := by
  unfold State.unpinEntry
  split
  · rw [State.unpin_stack, State.stack_setStack_self]
    intro b
    rw [List.getElem?_set]
    split
    · split <;> simp
    · exact h b
  · exact h
  · exact h

theorem State.unpinEntry_self (x : State) (p : Port) (i : Nat) :
    ∀ b, ((x.unpinEntry p i).stack p)[i]? ≠ some (some b) := by
  unfold State.unpinEntry
  split
  · rw [State.unpin_stack, State.stack_setStack_self]
    intro b
    rw [List.getElem?_set_self']
    cases (x.stack p)[i]? <;> simp
  next hi => rw [hi]; simp
  next hi => rw [hi]; simp

/-- Entries of p's stack unpinned one by one, in any order (R73). -/
theorem State.entriesUnpinned_foldl (p : Port) (s : State) (is : List Nat) :
    State.EntriesUnpinned p s (is.foldl (fun s i => s.unpinEntry p i) s)
      ∧ ∀ i ∈ is, ∀ b, ((is.foldl (fun s i => s.unpinEntry p i) s).stack p)[i]? ≠ some (some b) := by
  induction is using List.reverseRecOn with
  | nil => exact ⟨State.entriesUnpinned_refl p s, nofun⟩
  | append_singleton is i ih =>
    obtain ⟨hunpinned, hcleared⟩ := ih
    rw [List.foldl_append, List.foldl_cons, List.foldl_nil]
    refine ⟨State.entriesUnpinned_step hunpinned i, fun j hj => ?_⟩
    rcases List.mem_append.mp hj with hj | hj
    · exact State.unpinEntry_cleared (hcleared j hj) i
    · rw [List.mem_singleton.mp hj]
      exact State.unpinEntry_self _ p i

theorem State.savedOn_cleared {x : State} {p : Port}
    (h : ∀ i, i < (x.stack p).length → ∀ b, (x.stack p)[i]? ≠ some (some b)) (u : TableId)
    (n : Nat) : x.savedOn p u n = 0 := by
  unfold State.savedOn
  rw [List.countP_eq_zero]
  intro y hy
  obtain ⟨i, hi, rfl⟩ := List.mem_iff_getElem.mp hy
  cases hb : (x.stack p)[i] with
  | none => simp
  | some b => exact absurd (by rw [List.getElem?_eq_getElem hi, hb]) (h i hi b)

/-- Settles O11: the event unit's queue, and the pins that slots and entries give back one by one. -/
theorem sessionEndEmptiesThePort : Obligations.SessionEndEmptiesThePort := by
  refine ⟨fun p s h => congrArg _ (if_pos h), fun p order s h => ?_, fun p order s h => ?_⟩
  · obtain ⟨hunbound, hnone⟩ := State.slotsUnbound_foldl p (s.takeEnd p .cursorFile)
      (order ++ allSlots)
    have hexec : exec (.sessionEndCursorFile p order) s = .next
        ((order ++ allSlots).foldl (fun s c => s.unbindSlot p c) (s.takeEnd p .cursorFile)) :=
      congrArg Host.Outcome.next (if_pos h)
    generalize (order ++ allSlots).foldl (fun s c => s.unbindSlot p c) (s.takeEnd p .cursorFile) = t
      at hunbound hnone hexec
    obtain ⟨hpins, hothers, hframe⟩ := hunbound
    replace hnone (c : SlotId) : t.cursor p c = none :=
      hnone c (List.mem_append_right _ (mem_allSlots c))
    have hends : t.ends = (s.takeEnd p .cursorFile).ends := (congrArg State.ends hframe).trans rfl
    have hendsOf (q : Port) : t.endsOf q = (s.takeEnd p .cursorFile).endsOf q :=
      congrArg (fun e => e[q]) hends
    have hloses (u : TableId) : (s.table u).LosesPins (t.table u) fun n => s.slotsOn p u n := by
      obtain ⟨k, hk, hcount⟩ := hpins u
      refine hk.congr fun n => ?_
      have hn := hcount n
      rwa [State.slotsOn_unbound hnone, Nat.add_zero] at hn
    refine ⟨t, hexec, ?_, hnone, hothers, ?_, fun q hq => ?_, fun u v hv => (hloses u).1 v hv,
      fun u v w hv hw hne hle => (hloses u).2 v w hv hw hne hle⟩
    · rw [hendsOf]
      exact State.endsOf_setEnds_self ..
    · rw [hends]
      exact hframe
    · rw [hendsOf]
      exact State.endsOf_setEnds_other _ _ _ hq
  · obtain ⟨hunpinned, hcleared⟩ := State.entriesUnpinned_foldl p (s.takeEnd p .saveStacks)
      (order ++ List.range (s.stack p).length)
    have hexec : exec (.sessionEndSaveStacks p order) s = .next
        (((order ++ List.range (s.stack p).length).foldl (fun s i => s.unpinEntry p i)
          (s.takeEnd p .saveStacks)).setStack p []) :=
      congrArg Host.Outcome.next (if_pos h)
    generalize (order ++ List.range (s.stack p).length).foldl (fun s i => s.unpinEntry p i)
      (s.takeEnd p .saveStacks) = t at hunpinned hcleared hexec
    obtain ⟨hpins, hdepth, hothers, hframe⟩ := hunpinned
    have hends : t.ends = (s.takeEnd p .saveStacks).ends := (congrArg State.ends hframe).trans rfl
    have hendsOf (q : Port) : (t.setStack p []).endsOf q = (s.takeEnd p .saveStacks).endsOf q :=
      congrArg (fun e => e[q]) hends
    have hloses (u : TableId) : (s.table u).LosesPins (t.table u) fun n => s.savedOn p u n := by
      obtain ⟨k, hk, hcount⟩ := hpins u
      refine hk.congr fun n => ?_
      have hn := hcount n
      rwa [State.savedOn_cleared (fun i hi => hcleared i (List.mem_append_right _
        (List.mem_range.mpr (by rw [hdepth] at hi; exact hi)))), Nat.add_zero] at hn
    refine ⟨t.setStack p [], hexec, ?_, State.stack_setStack_self .., fun q hq => ?_, ?_,
      fun q hq => ?_, fun u v hv => (hloses u).1 v hv,
      fun u v w hv hw hne hle => (hloses u).2 v w hv hw hne hle⟩
    · rw [hendsOf]
      exact State.endsOf_setEnds_self ..
    · rw [State.stack_setStack_other _ _ _ hq, hothers q hq]
      rfl
    · generalize hstacks : (t.setStack p []).saveStacks = saved
      have hset : t.setStack p [] = { t with saveStacks := saved } := by rw [← hstacks]; rfl
      rw [hset]
      calc ({ t with saveStacks := saved } : State)
        _ = { (s.takeEnd p .saveStacks).withDirectoryOf t with saveStacks := saved } :=
          congrArg (fun y : State => { y with saveStacks := saved }) hframe
        _ = { s.withDirectoryOf t with ends := (s.takeEnd p .saveStacks).ends, saveStacks := saved } :=
          rfl
        _ = { s.withDirectoryOf t with ends := t.ends, saveStacks := saved } :=
          congrArg (fun e => { s.withDirectoryOf t with ends := e, saveStacks := saved }) hends.symm
    · rw [hendsOf]
      exact State.endsOf_setEnds_other _ _ _ hq

end Sys2Proof.Machine

namespace Sys2Proof.Machine

/-! ## The end of a session at the staging engine -/

/-- Whether a table's STAGED version is in a sub-state of the given kind. -/
def State.stagedIn (s : State) (holds : SubState → Bool) (t : TableId) : Bool :=
  (s.table t).staged.any fun st => holds st.sub

/-- Whether a queue entry is the STORE read of one of these tables. -/
def QueueEntry.readsFor (tables : TableId → Bool) (e : QueueEntry) : Bool :=
  match e.op with
  | .storeRead u => tables u
  | .persist _ | .charterWrite _ => false

/-- The entries of these tables have left the work list, the head's progress with the head. -/
structure Unlisted (gone : TableId → Bool) (s x : State) : Prop where
  list : x.workList = s.workList.filter fun u => !gone u
  head : x.headWork = if s.workList.head?.any gone then none else s.headWork

/-- These entries have left the image store queue, the one in flight stopped where it is among them. -/
structure Withdrawn (gone : QueueEntry → Bool) (s x : State) : Prop where
  idle : s.imageWork = .idle → x.imageWork = .idle
    ∧ x.imageQueue = s.imageQueue.filter fun e => !gone e
  busy : ∀ e rest, s.imageWork ≠ .idle → s.imageQueue = e :: rest →
    (gone e = true → (∀ y ∈ rest, y.op ≠ e.op) → x.imageWork = .idle
      ∧ x.imageQueue = rest.filter fun y => !gone y)
    ∧ (gone e = false → x.imageWork = s.imageWork
      ∧ x.imageQueue = e :: rest.filter fun y => !gone y)

section
variable {s x y : State}

theorem Unlisted.of_eq (hlist : x.workList = s.workList) (hhead : x.headWork = s.headWork) :
    Unlisted (fun _ => false) s x where
  list := hlist.trans (List.filter_eq_self.mpr fun _ _ => rfl).symm
  head := by rw [hhead]; cases s.workList.head? <;> rfl

theorem Withdrawn.of_eq (hqueue : x.imageQueue = s.imageQueue) (hwork : x.imageWork = s.imageWork) :
    Withdrawn (fun _ => false) s x where
  idle h := ⟨hwork.trans h, hqueue.trans (List.filter_eq_self.mpr fun _ _ => rfl).symm⟩
  busy e rest _ hq := ⟨fun h => absurd h Bool.false_ne_true, fun _ => ⟨hwork, by
    rw [hqueue, hq]
    exact congrArg _ (List.filter_eq_self.mpr fun _ _ => rfl).symm⟩⟩

theorem Unlisted.trans {a b : TableId → Bool} (ha : Unlisted a s x) (hb : Unlisted b x y) :
    Unlisted (fun u => a u || b u) s y where
  list := by
    rw [hb.list, ha.list, List.filter_filter]
    exact List.filter_congr fun u _ => by cases a u <;> cases b u <;> rfl
  head := by
    rw [hb.head, ha.head, ha.list]
    cases s.workList with
    | nil => rfl
    | cons u rest =>
      cases hu : a u <;> simp [hu]

theorem Withdrawn.trans {a b : QueueEntry → Bool} (ha : Withdrawn a s x) (hb : Withdrawn b x y) :
    Withdrawn (fun e => a e || b e) s y := by
  have hfilter (l : List QueueEntry) :
      (l.filter fun e => !a e).filter (fun e => !b e) = l.filter fun e => !(a e || b e) := by
    rw [List.filter_filter]
    exact List.filter_congr fun e _ => by cases a e <;> cases b e <;> rfl
  refine ⟨fun h => ?_, fun e rest hbusy hq => ⟨fun he hsingle => ?_, fun he => ?_⟩⟩
  · obtain ⟨hwork, hqueue⟩ := ha.idle h
    obtain ⟨hwork', hqueue'⟩ := hb.idle hwork
    exact ⟨hwork', by rw [hqueue', hqueue, hfilter]⟩
  · cases hae : a e with
    | true =>
      obtain ⟨hwork, hqueue⟩ := (ha.busy e rest hbusy hq).1 hae hsingle
      obtain ⟨hwork', hqueue'⟩ := hb.idle hwork
      exact ⟨hwork', by rw [hqueue', hqueue, hfilter]⟩
    | false =>
      obtain ⟨hwork, hqueue⟩ := (ha.busy e rest hbusy hq).2 hae
      obtain ⟨hwork', hqueue'⟩ := (hb.busy e _ (hwork ▸ hbusy) hqueue).1 (by rwa [hae] at he)
        fun z hz => hsingle z (List.mem_of_mem_filter hz)
      exact ⟨hwork', by rw [hqueue', hfilter]⟩
  · obtain ⟨hae, hbe⟩ := Bool.or_eq_false_iff.mp he
    obtain ⟨hwork, hqueue⟩ := (ha.busy e rest hbusy hq).2 hae
    obtain ⟨hwork', hqueue'⟩ := (hb.busy e _ (hwork ▸ hbusy) hqueue).2 hbe
    exact ⟨hwork'.trans hwork, by rw [hqueue', hfilter]⟩

/-- What the image store queue loses does not depend on the rest of the state. -/
theorem Withdrawn.congr {a : QueueEntry → Bool} (h : Withdrawn a s x)
    (hqueue : y.imageQueue = x.imageQueue) (hwork : y.imageWork = x.imageWork) :
    Withdrawn a s y where
  idle hidle := by rw [hqueue, hwork]; exact h.idle hidle
  busy e rest hbusy hq := by rw [hqueue, hwork]; exact h.busy e rest hbusy hq

end

theorem State.leaveWorkList_unlisted (s : State) (t : TableId) :
    Unlisted (fun u => decide (u = t)) s (s.leaveWorkList t) where
  list := List.filter_congr fun u _ => decide_not
  head := by
    rw [State.leaveWorkList]
    cases s.workList.head? <;> simp

theorem State.withdrawStoreRead_withdrawn (s : State) (t : TableId) :
    Withdrawn (fun e => decide (e.op = .storeRead t)) s (s.withdrawStoreRead t) := by
  have hfilter (l : List QueueEntry) :
      l.filter (fun e => e.op ≠ .storeRead t) = l.filter fun e => !decide (e.op = .storeRead t) :=
    List.filter_congr fun e _ => decide_not
  refine ⟨fun h => ?_, fun e rest hbusy hq => ⟨fun he hsingle => ?_, fun he => ?_⟩⟩
  · rw [State.withdrawStoreRead_idle t h]
    exact ⟨h, hfilter _⟩
  · have hop := of_decide_eq_true he
    rw [State.withdrawStoreRead_head hbusy hq hop]
    refine ⟨rfl, (List.filter_eq_self.mpr fun y hy => ?_).symm⟩
    exact (congrArg _ (decide_eq_false fun h => hsingle y hy (h.trans hop.symm))).trans rfl
  · rw [State.withdrawStoreRead_behind hbusy hq (of_decide_eq_false he)]
    exact ⟨rfl, congrArg _ (hfilter rest)⟩

/-- A listed version's work ends with its entry leaving the list, a COPY source's pin given back
before (R93). -/
theorem State.endStagedWork_listed {s : State} {t : TableId} {st : Staged}
    (h : (s.table t).staged = some st) (hsub : st.sub.listed = true) :
    s.endStagedWork t = s.leaveWorkList t ∨ ∃ n, s.endStagedWork t = (s.unpin t n).leaveWorkList t := by
  have hsub : (∃ k, st.sub = .filling k ∧ k ≠ .store) ∨ ∃ n, st.sub = .summing n := by
    cases hk : st.sub with
    | filling k => exact .inl ⟨k, rfl, fun h => by rw [hk, h] at hsub; cases hsub⟩
    | summing n => exact .inr ⟨n, rfl⟩
    | opened => rw [hk] at hsub; cases hsub
    | held n => rw [hk] at hsub; cases hsub
  by_cases hsource : ∀ w n, s.workList.head? = some t → s.headWork = some w → w.source ≠ some n
  · exact .inl (State.endStagedWork_unpinned h hsub hsource)
  · push Not at hsource
    obtain ⟨w, n, hfirst, hw, hn⟩ := hsource
    exact .inr ⟨n, State.endStagedWork_pinned h hsub hfirst hw hn⟩

theorem State.endStagedWork_none {s : State} {t : TableId} (h : (s.table t).staged = none) :
    s.endStagedWork t = s := by
  simp only [State.endStagedWork, h]

theorem State.stagedIn_iff {s : State} {holds : SubState → Bool} {t : TableId} :
    s.stagedIn holds t = true ↔ ∃ st, (s.table t).staged = some st ∧ holds st.sub = true :=
  Option.any_eq_true ..

/-- A version that is not listed leaves the work list as it is. -/
theorem State.endStagedWork_unlisted_none {s : State} {t : TableId}
    (h : s.stagedIn SubState.listed t = false) :
    (s.endStagedWork t).workList = s.workList ∧ (s.endStagedWork t).headWork = s.headWork := by
  cases hst : (s.table t).staged with
  | none => rw [State.endStagedWork_none hst]; exact ⟨rfl, rfl⟩
  | some st =>
    rw [State.stagedIn, hst] at h
    have hstore (hk : st.sub = .filling .store) : (s.endStagedWork t).workList = s.workList
        ∧ (s.endStagedWork t).headWork = s.headWork := by
      rw [State.endStagedWork_store hst hk, State.withdrawStoreRead_frame]
      exact ⟨rfl, rfl⟩
    have hrest (hk : st.sub = .opened ∨ ∃ n, st.sub = .held n) :
        (s.endStagedWork t).workList = s.workList ∧ (s.endStagedWork t).headWork = s.headWork := by
      rw [State.endStagedWork_resting hst hk]
      exact ⟨rfl, rfl⟩
    cases hk : st.sub with
    | filling k =>
      cases k with
      | store => exact hstore hk
      | _ => rw [Option.any_some, hk] at h; cases h
    | summing n => rw [Option.any_some, hk] at h; cases h
    | opened => exact hrest (.inl hk)
    | held n => exact hrest (.inr ⟨n, hk⟩)

theorem State.endStagedWork_unlisted (s : State) (t : TableId) :
    Unlisted (fun u => decide (u = t) && s.stagedIn SubState.listed t) s (s.endStagedWork t) := by
  cases h : s.stagedIn SubState.listed t with
  | false =>
    obtain ⟨hlist, hhead⟩ := State.endStagedWork_unlisted_none h
    simpa only [Bool.and_false] using Unlisted.of_eq hlist hhead
  | true =>
    obtain ⟨st, hst, hsub⟩ := State.stagedIn_iff.mp h
    simp only [Bool.and_true]
    rcases State.endStagedWork_listed hst hsub with hw | ⟨n, hw⟩
    · rw [hw]
      exact s.leaveWorkList_unlisted t
    · have hunlisted := (s.unpin t n).leaveWorkList_unlisted t
      rw [hw]
      exact ⟨by simpa using hunlisted.list, by simpa using hunlisted.head⟩

/-- Only a STORE fill's end touches the image store queue. -/
theorem State.endStagedWork_withdrawn_none {s : State} {t : TableId}
    (h : s.stagedIn (fun sub => sub = .filling .store) t = false) :
    (s.endStagedWork t).imageQueue = s.imageQueue ∧ (s.endStagedWork t).imageWork = s.imageWork := by
  cases hst : (s.table t).staged with
  | none => rw [State.endStagedWork_none hst]; exact ⟨rfl, rfl⟩
  | some st =>
    rw [State.stagedIn, hst, Option.any_some, decide_eq_false_iff_not] at h
    cases hl : st.sub.listed with
    | true =>
      rcases State.endStagedWork_listed hst hl with hw | ⟨n, hw⟩
      · rw [hw]; exact ⟨rfl, rfl⟩
      · rw [hw]; exact ⟨State.unpin_imageQueue .., State.unpin_imageWork ..⟩
    | false =>
      have hk : st.sub = .opened ∨ ∃ n, st.sub = .held n := by
        cases hk : st.sub with
        | filling k =>
          rw [hk] at hl h
          cases k with
          | store => exact absurd rfl h
          | _ => cases hl
        | summing n => rw [hk] at hl; cases hl
        | opened => exact .inl rfl
        | held n => exact .inr ⟨n, rfl⟩
      rw [State.endStagedWork_resting hst hk]
      exact ⟨rfl, rfl⟩

theorem State.endStagedWork_withdrawn (s : State) (t : TableId) :
    Withdrawn (fun e => decide (e.op = .storeRead t)
      && s.stagedIn (fun sub => sub = .filling .store) t) s (s.endStagedWork t) := by
  cases h : s.stagedIn (fun sub => sub = .filling .store) t with
  | false =>
    obtain ⟨hqueue, hwork⟩ := State.endStagedWork_withdrawn_none h
    simpa only [Bool.and_false] using Withdrawn.of_eq hqueue hwork
  | true =>
    obtain ⟨st, hst, hsub⟩ := State.stagedIn_iff.mp h
    rw [State.endStagedWork_store hst (of_decide_eq_true hsub)]
    simpa only [Bool.and_true] using s.withdrawStoreRead_withdrawn t

/-- What a release of pages leaves of the queues. -/
theorem State.abandonStaged_queues (s : State) (t : TableId) :
    (s.abandonStaged t).workList = (s.endStagedWork t).workList
      ∧ (s.abandonStaged t).headWork = (s.endStagedWork t).headWork
      ∧ (s.abandonStaged t).imageQueue = (s.endStagedWork t).imageQueue
      ∧ (s.abandonStaged t).imageWork = (s.endStagedWork t).imageWork := by
  have h : s.abandonStaged t = (s.endStagedWork t).withDirectoryOf (s.abandonStaged t) :=
    (s.endStagedWork t).releaseStaged_frame t
  exact ⟨(congrArg State.workList h).trans rfl, (congrArg State.headWork h).trans rfl,
    (congrArg State.imageQueue h).trans rfl,
    (congrArg State.imageWork h).trans rfl⟩

/-- Whether a port writes the table and has a STAGED version of the given kind there. -/
def State.stagedBy (s : State) (p : Port) (holds : SubState → Bool) (u : TableId) : Bool :=
  decide ((s.table u).entry.writer = some p) && s.stagedIn holds u

/-- A test on the tables that a walk has visited. -/
def visitedAnd (visited : List TableId) (f : TableId → Bool) (u : TableId) : Bool :=
  decide (u ∈ visited) && f u

theorem visitedAnd_nil (f : TableId → Bool) : visitedAnd [] f = fun _ => false :=
  funext fun u => by simp [visitedAnd]

theorem visitedAnd_append (visited : List TableId) (t : TableId) (f : TableId → Bool) :
    visitedAnd (visited ++ [t]) f = fun u => visitedAnd visited f u || (decide (u = t) && f t) := by
  funext u
  unfold visitedAnd
  by_cases hut : u = t
  · subst hut; simp
  · simp [hut]

theorem visitedAnd_all {visited : List TableId} (h : ∀ u, u ∈ visited) (f : TableId → Bool) :
    visitedAnd visited f = f :=
  funext fun u => by rw [visitedAnd, decide_eq_true (h u), Bool.true_and]

/-- The visited tables that p writes have lost their STAGED versions, and nothing else has. -/
structure State.StagingEnded (p : Port) (visited : List TableId) (s x : State) : Prop where
  gone : ∀ u ∈ visited, (s.table u).entry.writer = some p → (x.table u).staged = none
  kept : ∀ u, u ∉ visited ∨ (s.table u).entry.writer ≠ some p → x.table u = s.table u
  frame : x = { s.withDirectoryOf x with
    workList := x.workList, headWork := x.headWork
    imageQueue := x.imageQueue, imageWork := x.imageWork }
  unlisted : Unlisted (visitedAnd visited (s.stagedBy p SubState.listed)) s x
  withdrawn : Withdrawn (QueueEntry.readsFor
    (visitedAnd visited (s.stagedBy p fun sub => sub = .filling .store))) s x

/-- What the staging engine does with one table as a session ends (R97). -/
def State.endStagedOf (p : Port) (s : State) (t : TableId) : State :=
  if (s.table t).entry.writer = some p then s.abandonStaged t else s

theorem QueueEntry.readsFor_false (e : QueueEntry) : e.readsFor (fun _ => false) = false := by
  unfold QueueEntry.readsFor
  cases e.op <;> rfl

theorem QueueEntry.readsFor_or (a b : TableId → Bool) (e : QueueEntry) :
    e.readsFor (fun u => a u || b u) = (e.readsFor a || e.readsFor b) := by
  unfold QueueEntry.readsFor
  cases e.op <;> rfl

theorem QueueEntry.readsFor_single (t : TableId) (b : Bool) (e : QueueEntry) :
    e.readsFor (fun u => decide (u = t) && b) = (decide (e.op = .storeRead t) && b) := by
  unfold QueueEntry.readsFor
  cases e.op <;> simp

theorem State.stagingEnded_refl (p : Port) (s : State) : State.StagingEnded p [] s s where
  gone _ h := absurd h List.not_mem_nil
  kept _ _ := rfl
  frame := rfl
  unlisted := by rw [visitedAnd_nil]; exact Unlisted.of_eq rfl rfl
  withdrawn := by
    rw [visitedAnd_nil, funext QueueEntry.readsFor_false]
    exact Withdrawn.of_eq rfl rfl

theorem State.stagingEnded_step {p : Port} {visited : List TableId} {s x : State}
    (h : State.StagingEnded p visited s x) {t : TableId} (ht : t ∉ visited) :
    State.StagingEnded p (visited ++ [t]) s (x.endStagedOf p t) := by
  obtain ⟨hgone, hkept, hframe, hunlisted, hwithdrawn⟩ := h
  have htable : x.table t = s.table t := hkept t (.inl ht)
  have hin (f : SubState → Bool) : x.stagedIn f t = s.stagedIn f t := by
    rw [State.stagedIn, htable, State.stagedIn]
  by_cases hw : (s.table t).entry.writer = some p
  · have hby (f : SubState → Bool) : s.stagedBy p f t = s.stagedIn f t := by
      rw [State.stagedBy, decide_eq_true hw, Bool.true_and]
    have hstep : x.endStagedOf p t = x.abandonStaged t := if_pos (by rw [htable]; exact hw)
    obtain ⟨hnone, -, hothers⟩ := x.abandonStaged_table t
    obtain ⟨hlist, hhead, hqueue, hwork⟩ := x.abandonStaged_queues t
    have hun := x.endStagedWork_unlisted t
    have hwith := (x.endStagedWork_withdrawn t).congr hqueue hwork
    rw [hin] at hun hwith
    rw [hstep]
    refine ⟨fun u hu hwu => ?_, fun u hu => ?_, ?_, ?_, ?_⟩
    · by_cases hut : u = t
      · rw [hut, hnone]
      · rw [hothers u hut]
        exact hgone u ((List.mem_append.mp hu).resolve_right fun h => hut (List.mem_singleton.mp h)) hwu
    · have hut : u ≠ t := by
        rintro rfl
        exact hu.elim (fun h => h (List.mem_append_right _ List.mem_cons_self)) fun h => h hw
      rw [hothers u hut]
      exact hkept u (hu.imp_left fun h hm => h (List.mem_append_left _ hm))
    · have hx := x.abandonStaged_frame t
      generalize x.abandonStaged t = y at hx
      rw [hframe] at hx
      exact hx
    · rw [visitedAnd_append, hby]
      exact hunlisted.trans ⟨hlist.trans hun.list, hhead.trans hun.head⟩
    · rw [visitedAnd_append, hby, funext (QueueEntry.readsFor_or _ _)]
      simp only [QueueEntry.readsFor_single]
      exact hwithdrawn.trans hwith
  · have hby (f : SubState → Bool) : s.stagedBy p f t = false := by
      rw [State.stagedBy, decide_eq_false hw, Bool.false_and]
    have hstep : x.endStagedOf p t = x := if_neg (by rw [htable]; exact hw)
    rw [hstep]
    refine ⟨fun u hu hwu => hgone u ?_ hwu, fun u hu => hkept u ?_, hframe, ?_, ?_⟩
    · refine (List.mem_append.mp hu).resolve_right fun h => hw ?_
      rwa [← List.mem_singleton.mp h]
    · exact hu.imp_left fun h hm => h (List.mem_append_left _ hm)
    · simpa only [visitedAnd_append, hby, Bool.and_false, Bool.or_false] using hunlisted
    · simpa only [visitedAnd_append, hby, Bool.and_false, Bool.or_false] using hwithdrawn

theorem State.stagingEnded_foldl (p : Port) (s : State) {visited : List TableId}
    (h : visited.Nodup) :
    State.StagingEnded p visited s (visited.foldl (State.endStagedOf p) s) := by
  induction visited using List.reverseRecOn with
  | nil => exact State.stagingEnded_refl p s
  | append_singleton ts t ih =>
    obtain ⟨hts, -, hdisjoint⟩ := List.nodup_append.mp h
    rw [List.foldl_append, List.foldl_cons, List.foldl_nil]
    exact State.stagingEnded_step (ih hts) fun hm =>
      hdisjoint t hm t List.mem_cons_self rfl

theorem allTables_nodup : allTables.Nodup := by decide

theorem QueueEntry.stopsWith_iff (e : QueueEntry) (p : Port) :
    e.stopsWith p = true ↔ e.port = p ∧ ∃ u, e.op = .storeRead u := by
  unfold QueueEntry.stopsWith
  cases e.op <;> simp

/-- Nothing in flight: the port's entries leave the queue (R130). -/
theorem State.withdrawPort_idle {s : State} (p : Port) (h : s.imageWork = .idle) :
    s.withdrawPort p = { s with imageQueue := s.imageQueue.filter (fun e => e.port ≠ p) } := by
  unfold State.withdrawPort
  split
  next hq => rw [hq]; exact congrArg (fun q => { s with imageQueue := q }) hq
  next e rest hq => rw [if_neg (by rw [State.headStarted_idle h]; exact Bool.false_ne_true), hq]

section
variable {s : State} {p : Port} {e : QueueEntry} {rest : List QueueEntry}

/-- The port's STORE read in flight is stopped (R130). -/
theorem State.withdrawPort_stopped (h : s.imageWork ≠ .idle) (hq : s.imageQueue = e :: rest)
    (he : e.stopsWith p = true) :
    s.withdrawPort p
      = { s with imageQueue := rest.filter (fun x => x.port ≠ p), imageWork := .idle } := by
  simp only [State.withdrawPort, hq, State.headStarted, decide_eq_true h, if_true, he]

/-- Any other operation in flight goes on (R130). -/
theorem State.withdrawPort_goes_on (h : s.imageWork ≠ .idle) (hq : s.imageQueue = e :: rest)
    (he : ¬e.stopsWith p = true) :
    s.withdrawPort p = { s with imageQueue := e :: rest.filter (fun x => x.port ≠ p) } := by
  simp only [State.withdrawPort, hq, State.headStarted, decide_eq_true h, if_true, if_neg he]

end

/-- Settles O12: the staging engine abandons one table after another, and the image store controller
withdraws the port's entries. -/
theorem sessionEndStopsTheWork : Obligations.SessionEndStopsTheWork := by
  refine ⟨?_, ?_⟩
  · intro p s h stages listed stored
    have hended := State.stagingEnded_foldl p (s.takeEnd p .stagingEngine) allTables_nodup
    have hexec : exec (.sessionEndStaging p) s = .next
        (allTables.foldl (State.endStagedOf p) (s.takeEnd p .stagingEngine)) :=
      congrArg Host.Outcome.next (if_pos h)
    generalize allTables.foldl (State.endStagedOf p) (s.takeEnd p .stagingEngine) = t at hended hexec
    obtain ⟨hgone, hkept, hframe, hunlisted, hwithdrawn⟩ := hended
    have hends : t.ends = (s.takeEnd p .stagingEngine).ends := (congrArg State.ends hframe).trans rfl
    have hendsOf (q : Port) : t.endsOf q = (s.takeEnd p .stagingEngine).endsOf q :=
      congrArg (fun e => e[q]) hends
    rw [visitedAnd_all mem_allTables] at hunlisted hwithdrawn
    refine ⟨t, hexec, ?_, fun u hw => hgone u (mem_allTables u) hw, fun u hw => hkept u (.inr hw), ?_,
      fun q hq => ?_, hunlisted.list, hunlisted.head, hwithdrawn.idle, hwithdrawn.busy⟩
    · rw [hendsOf]
      exact State.endsOf_setEnds_self ..
    · rw [hends]
      exact hframe
    · rw [hendsOf]
      exact State.endsOf_setEnds_other _ _ _ hq
  · intro p s h taken
    have hexec : exec (.sessionEndImageStore p) s
        = .next ((s.takeEnd p .imageStore).withdrawPort p) := congrArg Host.Outcome.next (if_pos h)
    refine ⟨fun hidle => ?_, fun e rest hbusy hq => ⟨fun he => ?_, fun he => ?_⟩⟩
    · rw [hexec, State.withdrawPort_idle (s := s.takeEnd p .imageStore) p hidle]
      rfl
    · rw [hexec, State.withdrawPort_stopped (s := s.takeEnd p .imageStore) hbusy hq
        ((e.stopsWith_iff p).mpr he)]
      rfl
    · rw [hexec, State.withdrawPort_goes_on (s := s.takeEnd p .imageStore) hbusy hq
        (he ∘ (e.stopsWith_iff p).mp)]
      rfl

end Sys2Proof.Machine

namespace Sys2Proof.Machine

/-! ## The words of a read -/

section
variable {s : State} {p : Port} {words : Nat} {job : ReadJob}

/-- A read with no word left answers, however many words its command may read (R53, R56). -/
theorem readOn_ended (h : s.readEnded p job = true) :
    readOn p words job s = answering s (s.readReply p job false) := by
  have hwords (n : Nat) (hn : n ≤ job.left) : State.readWords p n s job = (s, job, .complete) := by
    cases n with
    | zero => rw [State.readWords, if_pos h]
    | succ n =>
      have hleft : job.left ≠ 0 := by omega
      rw [State.readEnded, decide_eq_false hleft, Bool.false_or, Option.isNone_iff_eq_none] at h
      simp only [State.readWords, h]
  simp only [readOn, hwords _ (Nat.min_le_right words job.left)]

/-- A read with words left that has no word to its command, or no grant, waits (R15, R55). -/
theorem readOn_waiting {o : Nat} (hl : 1 ≤ job.left) (hn : s.nextOffset p job = some o)
    (h : words = 0 ∨ s.grants (.portEngine p) = false) :
    readOn p words job s = (s.setTurn p (.reading job), none) := by
  have hended : ¬s.readEnded p job = true := by
    rw [State.readEnded, hn, decide_eq_false (by omega : job.left ≠ 0)]
    exact Bool.false_ne_true
  have hwords (n : Nat) (hz : n = 0 ∨ s.grants (.portEngine p) = false) :
      State.readWords p n s job = (s, job, .waits) := by
    cases n with
    | zero => rw [State.readWords, if_neg hended]
    | succ n =>
      have hg := hz.resolve_left (Nat.succ_ne_zero n)
      simp only [State.readWords, hn, if_neg (show ¬s.grants (.portEngine p) = true by simp [hg])]
  have hmin : min words job.left = 0 ∨ s.grants (.portEngine p) = false :=
    h.imp_left fun h => by rw [h, Nat.zero_min]
  simp only [readOn, hwords _ hmin]

/-- A parity error is reported first, and then the read answers with the words before it (R57). -/
theorem readOn_parity {o : Nat} (hw : 1 ≤ words) (hl : 1 ≤ job.left)
    (hn : s.nextOffset p job = some o) (hg : s.grants (.portEngine p) = true)
    (hx : oddOnes (s.versionWord job.pages o) = false) :
    readOn p words job s = answering
      (({ s with arbiter := Requestor.next (.portEngine p) } : State).parityReport job.table
        job.number (o / 256))
      ((({ s with arbiter := Requestor.next (.portEngine p) } : State).parityReport job.table
        job.number (o / 256)).readReply p job true) := by
  obtain ⟨n, hmin⟩ : ∃ n, min words job.left = n + 1 := ⟨min words job.left - 1, by omega⟩
  have hwords : State.readWords p (n + 1) s job
      = (({ s with arbiter := Requestor.next (.portEngine p) } : State).parityReport job.table
          job.number (o / 256), job, .parity) := by
    simp only [State.readWords, hn, if_pos hg, State.readGranted, hx, if_neg Bool.false_ne_true]
    rfl
  simp only [readOn, hmin, hwords]

theorem readOn_complete {t : State} {job' : ReadJob} (hw : job.left ≤ words)
    (h : State.readWords p job.left s job = (t, job', .complete)) :
    readOn p words job s = answering t (t.readReply p job' false) := by
  simp only [readOn, Nat.min_eq_right hw, h]

theorem readOn_stopped {t : State} {job' : ReadJob} (hw : job.left ≤ words)
    (h : State.readWords p job.left s job = (t, job', .parity)) :
    readOn p words job s = answering t (t.readReply p job' true) := by
  simp only [readOn, Nat.min_eq_right hw, h]

/-! ## Where a read stands, and what it answers -/

section
variable {c : SlotId} {b : Binding} (hwalk : job.walk = .fetch c) (hb : s.cursor p c = some b)
include hwalk hb

theorem State.nextOffset_fetch_end (h : b.atEnd job.length = true) : s.nextOffset p job = none := by
  simp only [State.nextOffset, hwalk, hb, if_pos h]

theorem State.nextOffset_fetch (h : b.atEnd job.length = false) :
    s.nextOffset p job = some b.offset := by
  simp only [State.nextOffset, hwalk, hb, h, if_neg Bool.false_ne_true]

theorem State.stepSlot_fetch : s.stepSlot p job
    = s.setCursor p c (some { b with offset := b.mode.step b.offset b.stride job.length }) := by
  simp only [State.stepSlot, hwalk, hb]

theorem State.readReply_fetch (parity : Bool) : s.readReply p job parity
    = replyOk (wordBytes job.number ++ wordBytes b.offset ++ job.words.flatMap bytesOfWord)
      { endReached := decide (b.mode = .linear ∧ b.offset = job.length)
        stale := job.stale, rebound := job.rebound, parity := parity
        damaged := s.damagedNow job.table job.number } := by
  simp only [State.readReply, hwalk, State.slotOffset, State.slotAtEnd, hb,
    ← Binding.atEnd_eq_decide]

end

section
variable {start : Nat} (hwalk : job.walk = .peek start)
include hwalk

theorem State.nextOffset_peek : s.nextOffset p job = some (start + job.words.length) := by
  simp only [State.nextOffset, hwalk]

theorem State.stepSlot_peek : s.stepSlot p job = s := by
  simp only [State.stepSlot, hwalk]

theorem State.readReply_peek (parity : Bool) : s.readReply p job parity
    = replyOk (wordBytes job.number ++ wordBytes start ++ job.words.flatMap bytesOfWord)
      { stale := job.stale, rebound := job.rebound, parity := parity
        damaged := s.damagedNow job.table job.number } := by
  simp only [State.readReply, hwalk]

end

/-! ## The first step of a read -/

section
variable {tag slot count : Byte} {c : SlotId} {b b1 : Binding} {v : Version}
  {isCurrent moved : Bool} {s1 : State}

theorem fetchOwner_reading (hasks : s.asksAt p (.fetch slot count) tag (.reading job)) :
    fetchOwner p slot count words s = readOn p words job s :=
  inTurns_reading words _ hasks

theorem fetchOwner_begins (hasks : s.asks p (.fetch slot count) tag)
    (hm : s.part.state ≠ .maintenance) (hslot : slot.toNat = c.val) (h1 : 1 ≤ count.toNat)
    (h16 : count.toNat ≤ 16) (hb : s.cursor p c = some b)
    (hf : s.fixVersion p c b = some (s1, b1, v, isCurrent, moved)) :
    fetchOwner p slot count words s
      = readOn p words (readJob (.fetch c) b1 v isCurrent moved count.toNat) s1 := by
  rw [fetchOwner, inTurns_start words _ hasks, outsideMaintenance_out _ hm]
  simp only [slotOperand_val hslot, countOperand_val h1 h16, withBound_some _ hb, hf]

theorem fetchOwner_unbound (hasks : s.asks p (.fetch slot count) tag)
    (hm : s.part.state ≠ .maintenance) (hslot : slot.toNat = c.val) (h1 : 1 ≤ count.toNat)
    (h16 : count.toNat ≤ 16) (hb : s.cursor p c = none) :
    fetchOwner p slot count words s = refusing s .unbound := by
  rw [fetchOwner, inTurns_start words _ hasks, outsideMaintenance_out _ hm]
  simp only [slotOperand_val hslot, countOperand_val h1 h16, withBound_none _ hb]

variable {offset : Word}

theorem peekOwner_reading (hasks : s.asksAt p (.peek slot offset count) tag (.reading job)) :
    peekOwner p slot offset count words s = readOn p words job s :=
  inTurns_reading words _ hasks

theorem peekOwner_bound (hasks : s.asks p (.peek slot offset count) tag)
    (hm : s.part.state ≠ .maintenance) (hslot : slot.toNat = c.val) (ho : offset.toNat ≤ 4095)
    (h1 : 1 ≤ count.toNat) (h16 : count.toNat ≤ 16) (hb : s.cursor p c = some b)
    (hf : s.fixVersion p c b = some (s1, b1, v, isCurrent, moved)) :
    peekOwner p slot offset count words s
      = if v.length < offset.toNat + count.toNat then
          answering s1 { refuse .range with flags := Flags.byte { rebound := moved } }
        else readOn p words (readJob (.peek offset.toNat) b1 v isCurrent moved count.toNat) s1 := by
  rw [peekOwner, inTurns_start words _ hasks, outsideMaintenance_out _ hm]
  simp only [slotOperand_val hslot, offsetOperand_val ho, countOperand_val h1 h16,
    withBound_some _ hb, hf]
  rfl

theorem peekOwner_unbound (hasks : s.asks p (.peek slot offset count) tag)
    (hm : s.part.state ≠ .maintenance) (hslot : slot.toNat = c.val) (ho : offset.toNat ≤ 4095)
    (h1 : 1 ≤ count.toNat) (h16 : count.toNat ≤ 16) (hb : s.cursor p c = none) :
    peekOwner p slot offset count words s = refusing s .unbound := by
  rw [peekOwner, inTurns_start words _ hasks, outsideMaintenance_out _ hm]
  simp only [slotOperand_val hslot, offsetOperand_val ho, countOperand_val h1 h16,
    withBound_none _ hb]

/-- A slot that no rebind moves shows STALE where its version is not CURRENT (R54). -/
theorem readJob_stays (walk : Walk) (n : Nat) (hf : b.follow = true → isCurrent = true) :
    readJob walk b v isCurrent moved n =
      { walk := walk, table := b.table, number := v.number, length := v.length, pages := v.pages
        stale := !isCurrent, rebound := moved, words := [], left := n } := by
  have hstale : (!isCurrent && !b.follow) = !isCurrent := by
    cases hb : b.follow with
    | false => simp
    | true => simp [hf hb]
  rw [readJob, hstale]

/-- A read of the CURRENT version is not STALE (R54). -/
theorem readJob_current (walk : Walk) (n : Nat) :
    readJob walk b v true moved n =
      { walk := walk, table := b.table, number := v.number, length := v.length, pages := v.pages
        stale := false, rebound := moved, words := [], left := n } := rfl

end

end

/-! ## A read that goes on from where its request stands -/

section
variable {s s1 : State} {p : Port} {req : Request} {tag : Byte} {owner later : Owner}
  {words : Nat} {job : ReadJob} {turn0 turn1 : Turn}

/-- A request whose first step or last word has left a read to go on answers as one that stands in the
read (R15, R55). -/
theorem State.serve_reads (h : s.asksAt p req tag turn0) (ha : s.admits p)
    (hb : owner (s.leaseRenewed p) = readOn p words job s1) (h1 : s1.asksAt p req tag turn1)
    (hturn : ∀ w, turn1 ≠ .writing w) (ha1 : s1.admits p) (hl : s1.leaseRenewed p = s1)
    (hlater : later (s1.setTurn p (.reading job))
      = readOn p words job (s1.setTurn p (.reading job))) :
    s.serve p req owner = (s1.setTurn p (.reading job)).serve p req later :=
  State.serve_begins h ha hb h1 ha1 hl hlater (readOn_setTurn h1 hturn words job)

end

end Sys2Proof.Machine

namespace Sys2Proof.Machine

/-! ## FETCH -/

theorem exec_fetch (p : Port) (slot count : Byte) (words : Nat) (s : State) :
    exec (.fetch p slot count words) s
      = .next (s.serve p (.fetch slot count) (fetchOwner p slot count words)) := rfl

/-- A read of a FETCH alone at the arbiter whose words are sound (R53, R54). -/
theorem readOn_fetch_sound {s : State} {p : Port} {words : Nat} {job : ReadJob} {c : SlotId}
    {b : Binding} (hw : job.left ≤ words) (hwalk : job.walk = .fetch c)
    (hb : s.cursor p c = some b) (hwait : s.waiting = [])
    (hsound : s.soundAt job.pages (fetchOffsets b job.length job.left)) :
    readOn p words job s = answering
      { s.setCursor p c (some { b with offset := fetchEnd b job.length job.left }) with
        arbiter := if fetchOffsets b job.length job.left = [] then s.arbiter
          else Requestor.next (.portEngine p) }
      (replyOk (wordBytes job.number ++ wordBytes (fetchEnd b job.length job.left)
          ++ (job.words ++ s.wordsAt job.pages
            (fetchOffsets b job.length job.left)).flatMap bytesOfWord)
        { endReached := decide (b.mode = .linear ∧ fetchEnd b job.length job.left = job.length)
          stale := job.stale, rebound := job.rebound
          damaged := s.damagedNow job.table job.number }) := by
  rw [readOn_complete hw
    (State.readWords_fetch_sound p c job.left s b job rfl hwalk hb hwait hsound),
    State.readReply_fetch (c := c) (b := { b with offset := fetchEnd b job.length job.left })]
  · rfl
  · exact hwalk
  · exact State.cursor_setCursor_self s p c _

section
variable {s s1 : State} {p : Port} {slot count tag : Byte} {words : Nat} {c : SlotId}
  {b b1 : Binding} {v : Version} {isCurrent moved : Bool}
  (hasks : s.asks p (.fetch slot count) tag) (hserves : s.servesTables p)
  (hslot : slot.toNat = c.val) (h1 : 1 ≤ count.toNat) (h16 : count.toNat ≤ 16)
  (hb : s.cursor p c = some b)
  (hf : (s.leaseRenewed p).fixVersion p c b = some (s1, b1, v, isCurrent, moved))
include hasks hserves hslot h1 h16 hb hf

/-- A FETCH alone at the arbiter whose words read well answers them all (R53, R54). -/
theorem exec_fetch_answers (hb1 : s1.cursor p c = some b1) (hwait : s1.waiting = [])
    (hwords : count.toNat ≤ words)
    (hsound : s1.soundAt v.pages (fetchOffsets b1 v.length count.toNat)) :
    exec (.fetch p slot count words) s = .next
      (({ s1.setCursor p c (some { b1 with offset := fetchEnd b1 v.length count.toNat }) with
          arbiter := if fetchOffsets b1 v.length count.toNat = [] then s1.arbiter
            else Requestor.next (.portEngine p) } : State).respond p tag
        (replyOk (wordBytes v.number ++ wordBytes (fetchEnd b1 v.length count.toNat)
            ++ (s1.wordsAt v.pages (fetchOffsets b1 v.length count.toNat)).flatMap bytesOfWord)
          { endReached := decide (b1.mode = .linear ∧ fetchEnd b1 v.length count.toNat = v.length)
            stale := (readJob (.fetch c) b1 v isCurrent moved count.toNat).stale
            rebound := moved, damaged := s1.damagedNow b1.table v.number })) := by
  have howner := fetchOwner_begins (words := words) (s := s.leaseRenewed p) hasks hserves.2 hslot
    h1 h16 hb hf
  rw [readOn_fetch_sound (job := readJob (.fetch c) b1 v isCurrent moved count.toNat) hwords rfl hb1
    hwait hsound] at howner
  exact congrArg _ (State.serve_admitted hasks hserves.1 howner)

/-- A FETCH answers as one that stands after its first step (R53). -/
theorem exec_fetch_goesOn (hasks1 : s1.asks p (.fetch slot count) tag) (hadmits1 : s1.admits p)
    (hrenewed : s1.leaseRenewed p = s1) :
    exec (.fetch p slot count words) s = exec (.fetch p slot count words)
      (s1.setTurn p (.reading (readJob (.fetch c) b1 v isCurrent moved count.toNat))) := by
  rw [exec_fetch, exec_fetch]
  exact congrArg _ (State.serve_reads hasks hserves.1
    (fetchOwner_begins (s := s.leaseRenewed p) hasks hserves.2 hslot h1 h16 hb hf) hasks1
    (fun _ => Turn.noConfusion) hadmits1 hrenewed
    (fetchOwner_reading (State.asksAt_setTurn hasks1 _)))

end

/-- Settles O26: the arbiter, a FETCH that begins, one that goes on, and one of an unbound slot. -/
theorem fetchReturnsTheWords : Obligations.FetchReturnsTheWords := by
  refine ⟨?arbiter, ?begins, ?goesOn, ?refused⟩
  case arbiter =>
    intro s
    refine ⟨s.grants_iff, fun r q => ⟨rfl, Requestor.placesAfter_granted r q⟩, s.waits_portEngine,
      ?_, s.waits_imageStore⟩
    rw [State.waits_staging, State.writeWaits_iff, State.headWaits_iff]
  case begins =>
    intro p slot count tag words c s b v isCurrent hasks hserves hslot h1 h16 hb hl hfollow
      offsets after
    have hf : (s.leaseRenewed p).fixVersion p c b
        = some (s.leaseRenewed p, b, v, isCurrent, false) :=
      State.fixVersion_stays (s := s.leaseRenewed p) hb hl hfollow
    have hdamaged : (s.leaseRenewed p).damagedNow b.table v.number = v.damaged :=
      State.damagedNow_of_lookup (s := s.leaseRenewed p) (by rw [State.lookup_number hl]; exact hl)
    have hjob := readJob_stays (b := b) (v := v) (moved := false) (.fetch c) count.toNat hfollow
    refine ⟨fun hwait hwords hsound => ?_, ?_⟩
    · have h := exec_fetch_answers hasks hserves hslot h1 h16 hb hf hb
        ((s.leaseRenewed_waiting p).trans hwait) hwords hsound
      rw [hdamaged, hjob] at h
      exact h
    · have h := exec_fetch_goesOn (words := words) hasks hserves hslot h1 h16 hb hf hasks
        (State.admits_leaseRenewed hserves.1) (s.leaseRenewed_leaseRenewed p)
      rwa [hjob] at h
  case goesOn =>
    intro p slot count tag words c s b job v isCurrent hasks hserves hwalk hb hleft hl
      word after read next answer
    have howner : fetchOwner p slot count words (s.leaseRenewed p)
        = readOn p words job (s.leaseRenewed p) := fetchOwner_reading hasks
    have hdamaged (x : State) (hx : x.tables = s.tables) :
        x.damagedNow job.table job.number = v.damaged :=
      State.damagedNow_of_lookup (by
        rw [State.lookup, State.table, hx]
        exact hl)
    have hgrants : (s.leaseRenewed p).grants (.portEngine p) = s.grants (.portEngine p) :=
      State.leaseRenewed_grants ..
    refine ⟨fun hend => ?_, fun hend => ⟨fun h => ?_, fun hw hg hx => ?_⟩⟩
    · rw [readOn_ended (by
          rw [State.readEnded, State.nextOffset_fetch_end hwalk (s := s.leaseRenewed p) hb hend]
          exact Bool.or_true _),
        State.readReply_fetch hwalk (s := s.leaseRenewed p) hb, hdamaged (s.leaseRenewed p) rfl] at howner
      exact congrArg _ (State.serve_admitted hasks hserves.1 howner)
    · rw [readOn_waiting hleft (State.nextOffset_fetch hwalk (s := s.leaseRenewed p) hb hend)
        (h.imp_right hgrants.trans), State.setTurn_stay (s := s.leaseRenewed p) hasks] at howner
      exact congrArg _ (State.serve_waits hasks hserves.1 howner)
    · have hb' : read.cursor p c = some after := State.cursor_setCursor_self ..
      have htook : fetchOwner p slot count words (s.leaseRenewed p)
          = readOn p (words - 1) next read := by
        rw [howner, readOn_took hw hleft
          (State.nextOffset_fetch hwalk (s := s.leaseRenewed p) hb hend) (hgrants.trans hg) hx,
          State.stepSlot_fetch (s := { s.leaseRenewed p with
            arbiter := Requestor.next (.portEngine p) }) hwalk hb]
        rfl
      refine ⟨fun hmore hgoes => ⟨fun hstops => ?_, fun _ => ?_⟩, fun hlast => ?_⟩
      · have hwaits : words - 1 = 0 ∨ read.grants (.portEngine p) = false := by
          refine hstops.imp (fun h => by rw [h]) fun ⟨q, hq, hqw⟩ => ?_
          exact State.not_grants_again (q := q) rfl hq ((State.leaseRenewed_waits s p q).trans hqw)
        rw [readOn_waiting (Nat.le_sub_of_add_le hmore)
          (State.nextOffset_fetch (job := next) hwalk hb' hgoes) hwaits] at htook
        exact congrArg _ (State.serve_waits hasks hserves.1 htook)
      · rw [exec_fetch, exec_fetch]
        have hasks' : read.asksAt p (.fetch slot count) tag (.reading job) := hasks
        exact congrArg _ (State.serve_reads hasks hserves.1 htook hasks' (fun _ => Turn.noConfusion)
          (State.admits_leaseRenewed hserves.1)
          (congrArg (fun x : State => ({ x.setCursor p c (some after) with
            arbiter := Requestor.next (.portEngine p) } : State)) (s.leaseRenewed_leaseRenewed p))
          (fetchOwner_reading (State.asksAt_setTurn hasks' _)))
      · have hended : read.readEnded p next = true := by
          rcases hlast with h | h
          · have hnone : next.left = 0 := by show job.left - 1 = 0; rw [h]
            rw [State.readEnded, decide_eq_true hnone, Bool.true_or]
          · rw [State.readEnded, State.nextOffset_fetch_end (job := next) hwalk hb' h]
            exact Bool.or_true _
        rw [readOn_ended hended, State.readReply_fetch (job := next) hwalk hb',
          hdamaged read rfl] at htook
        exact congrArg _ (State.serve_admitted hasks hserves.1 htook)
  case refused =>
    intro p slot count tag words c s hasks hserves hslot h1 h16 hb
    exact congrArg _ (State.serve_admitted hasks hserves.1
      (fetchOwner_unbound (s := s.leaseRenewed p) hasks hserves.2 hslot h1 h16 hb))

end Sys2Proof.Machine

namespace Sys2Proof.Machine

/-! ## A read that meets a parity error -/

theorem State.respond_engine_other (s : State) {p q : Port} (tag : Byte) (r : Reply) (hq : q ≠ p) :
    (s.respond p tag r).engine q = s.engine q :=
  State.engine_setEngine_other _ _ _ hq

theorem Version.damaged_markParity (v : Version) (page : Nat) :
    (v.markParity page).damaged = true := by
  unfold Version.damaged Version.markParity
  split
  next => rfl
  next h => exact decide_eq_true h

theorem State.damagedNow_parityReport {s : State} {t : TableId} {n : Nat} {v : Version}
    {isCurrent : Bool} (page : Nat) (h : s.lookup t n = some (v, isCurrent)) :
    (s.parityReport t n page).damagedNow t n = true :=
  (State.damagedNow_of_lookup (State.lookup_parityReport page h)).trans (v.damaged_markParity page)

/-- A FETCH reads no word at END. -/
theorem not_atEnd_of_mem_fetchOffsets {length n o : Nat} :
    ∀ b : Binding, o ∈ fetchOffsets b length n → ¬(b.mode = .linear ∧ o = length) := by
  induction n with
  | zero => intro b h; cases h
  | succ n ih =>
    intro b h
    cases he : b.atEnd length with
    | true => simp [fetchOffsets, he] at h
    | false =>
      rw [fetchOffsets_step he] at h
      rcases List.mem_cons.mp h with rfl | h
      · rwa [Binding.atEnd_eq_decide, decide_eq_false_iff_not] at he
      · exact (ih _ h :)

/-- A read of a FETCH alone at the arbiter that stops at a parity error (R57). -/
theorem readOn_fetch_stops {s : State} {p : Port} {words : Nat} {job : ReadJob} {c : SlotId}
    {b : Binding} {before later : List Nat} {o : Nat} {v : Version} {isCurrent : Bool}
    (hw : job.left ≤ words) (hwalk : job.walk = .fetch c) (hb : s.cursor p c = some b)
    (hwait : s.waiting = []) (hoffsets : fetchOffsets b job.length job.left = before ++ o :: later)
    (hsound : s.soundAt job.pages before) (hx : oddOnes (s.versionWord job.pages o) = false)
    (hl : s.lookup job.table job.number = some (v, isCurrent)) :
    readOn p words job s = answering
      (({ s.setCursor p c (some { b with offset := o }) with
        arbiter := Requestor.next (.portEngine p) } : State).parityReport job.table job.number
          (o / 256))
      (replyOk (wordBytes job.number ++ wordBytes o
          ++ (job.words ++ s.wordsAt job.pages before).flatMap bytesOfWord)
        { stale := job.stale, rebound := job.rebound, parity := true, damaged := true }) := by
  have hend : decide (b.mode = .linear ∧ o = job.length) = false :=
    decide_eq_false (not_atEnd_of_mem_fetchOffsets (n := job.left) b (by rw [hoffsets]; simp))
  rw [readOn_stopped hw (State.readWords_fetch_stops p c job.left s b job before later o hwalk hb
      hwait hoffsets hsound hx),
    State.readReply_fetch (c := c) (b := { b with offset := o })]
  · simp only [hend]
    rw [State.damagedNow_parityReport (v := v) (isCurrent := isCurrent)]
    · rfl
    · exact hl
  · exact hwalk
  · rw [State.parityReport_cursor]
    exact State.cursor_setCursor_self s p c _

/-- Settles O27: a FETCH alone at the arbiter, and one in its turns. -/
theorem fetchStopsAtAParityError : Obligations.FetchStopsAtAParityError := by
  refine ⟨?alone, ?inTurns⟩
  case alone =>
    intro p slot count tag words c s b v isCurrent before o later hasks hserves hslot hwait hwords h1
      h16 hb hl hfollow hoffsets hsound hx
    have hnumber := State.lookup_number hl
    have hf : (s.leaseRenewed p).fixVersion p c b
        = some (s.leaseRenewed p, b, v, isCurrent, false) :=
      State.fixVersion_stays (s := s.leaseRenewed p) hb hl hfollow
    have howner := fetchOwner_begins (words := words) (s := s.leaseRenewed p) hasks hserves.2 hslot
      h1 h16 hb hf
    have hread := readOn_fetch_stops (s := s.leaseRenewed p) (p := p)
      (job := readJob (.fetch c) b v isCurrent false count.toNat) hwords rfl hb
      ((s.leaseRenewed_waiting p).trans hwait) hoffsets hsound hx (hnumber.symm ▸ hl)
    rw [hread, readJob_stays _ _ hfollow] at howner
    have hexec : exec (.fetch p slot count words) s = .next (State.respond
        (State.parityReport _ b.table v.number (o / 256)) p tag _) :=
      congrArg Host.Outcome.next (State.serve_admitted hasks hserves.1 howner)
    generalize hstopped : ({ (s.leaseRenewed p).setCursor p c (some { b with offset := o }) with
      arbiter := Requestor.next (.portEngine p) } : State) = stopped at hexec
    have hlookup : (stopped.parityReport b.table v.number (o / 256)).lookup b.table b.version
        = some (v.markParity (o / 256), isCurrent) := by
      rw [hnumber]
      exact State.lookup_parityReport _ (by rw [← hstopped]; exact hl)
    refine ⟨_, v.markParity (o / 256), hexec, ?_, ?_, ?_, hlookup, ?_, rfl, rfl, ?_,
      fun q hq => ?_, fun q d hqd => ?_, fun u hu => ?_⟩
    · rw [State.respond_engine]
      rfl
    · rw [State.respond_engine]
    · rw [State.respond_cursor, State.parityReport_cursor, ← hstopped]
      exact State.cursor_setCursor_self ..
    · exact (mem_insertSorted _ _ _).mpr (.inl rfl)
    · have hframe := stopped.parityReport_frame b.table v.number (o / 256)
      generalize stopped.parityReport b.table v.number (o / 256) = x at hframe
      rw [hframe, ← hstopped]
      rfl
    · rw [State.respond_engine_other _ _ _ hq, State.parityReport_engine, ← hstopped]
      rfl
    · rw [State.respond_cursor, State.parityReport_cursor, ← hstopped]
      exact State.cursor_setCursor_ne _ _ hqd
    · rw [State.respond_table, State.parityReport_table_other _ _ _ hu, ← hstopped]
      rfl
  case inTurns =>
    intro p slot count tag words c s b job v isCurrent hasks hserves hwalk hb hend hleft hw hl hg hx
    have howner : fetchOwner p slot count words (s.leaseRenewed p)
        = readOn p words job (s.leaseRenewed p) := fetchOwner_reading hasks
    have hatEnd : decide (b.mode = .linear ∧ b.offset = job.length) = false := by
      rw [← Binding.atEnd_eq_decide, hend]
    rw [readOn_parity hw hleft (State.nextOffset_fetch (s := s.leaseRenewed p) hwalk hb hend)
        ((s.leaseRenewed_grants p _).trans hg) hx,
      State.readReply_fetch (c := c) (b := b) hwalk, hatEnd,
      State.damagedNow_parityReport (v := v) (isCurrent := isCurrent)] at howner
    · exact congrArg _ (State.serve_admitted hasks hserves.1 howner)
    · exact hl
    · rw [State.parityReport_cursor]
      exact hb

end Sys2Proof.Machine

namespace Sys2Proof.Machine

/-! ## PEEK -/

theorem exec_peek (p : Port) (slot : Byte) (offset : Word) (count : Byte) (words : Nat) (s : State) :
    exec (.peek p slot offset count words) s
      = .next (s.serve p (.peek slot offset count) (peekOwner p slot offset count words)) := rfl

/-- The offsets of a PEEK (R56). -/
def peekOffsets (start n : Nat) : List Nat := (List.range n).map fun i => start + i

section
variable {s : State} {p : Port} {words : Nat} {job : ReadJob} {start : Nat}
  (hw : job.left ≤ words) (hwalk : job.walk = .peek start) (hwait : s.waiting = [])
include hw hwalk hwait

/-- A read of a PEEK alone at the arbiter whose words are sound (R56). -/
theorem readOn_peek_sound (hleft : 1 ≤ job.left)
    (hsound : s.soundAt job.pages (peekOffsets (start + job.words.length) job.left)) :
    readOn p words job s = answering { s with arbiter := Requestor.next (.portEngine p) }
      (replyOk (wordBytes job.number ++ wordBytes start
          ++ (job.words ++ s.wordsAt job.pages
            (peekOffsets (start + job.words.length) job.left)).flatMap bytesOfWord)
        { stale := job.stale, rebound := job.rebound
          damaged := s.damagedNow job.table job.number }) := by
  rw [readOn_complete hw (State.readWords_peek_sound p start job.left s job rfl hwalk hwait hsound),
    if_neg (Nat.ne_of_gt hleft), State.readReply_peek (start := start)]
  · rfl
  · exact hwalk

/-- A read of a PEEK alone at the arbiter that stops at a parity error (R57). -/
theorem readOn_peek_stops {before later : List Nat} {o : Nat} {v : Version} {isCurrent : Bool}
    (hoffsets : peekOffsets (start + job.words.length) job.left = before ++ o :: later)
    (hsound : s.soundAt job.pages before) (hx : oddOnes (s.versionWord job.pages o) = false)
    (hl : s.lookup job.table job.number = some (v, isCurrent)) :
    readOn p words job s = answering
      (({ s with arbiter := Requestor.next (.portEngine p) } : State).parityReport job.table
        job.number (o / 256))
      (replyOk (wordBytes job.number ++ wordBytes start
          ++ (job.words ++ s.wordsAt job.pages before).flatMap bytesOfWord)
        { stale := job.stale, rebound := job.rebound, parity := true, damaged := true }) := by
  rw [readOn_stopped hw
      (State.readWords_peek_stops p start job.left s job before later o hwalk hwait hoffsets hsound hx),
    State.readReply_peek (start := start)]
  · dsimp only
    rw [State.damagedNow_parityReport (v := v) (isCurrent := isCurrent)]
    · rfl
    · exact hl
  · exact hwalk

end

section
variable {s s1 : State} {p : Port} {slot count tag : Byte} {offset : Word} {words : Nat} {c : SlotId}
  {b b1 : Binding} {v : Version} {isCurrent moved : Bool}
  (hasks : s.asks p (.peek slot offset count) tag) (hserves : s.servesTables p)
  (hslot : slot.toNat = c.val) (ho : offset.toNat ≤ 4095) (h1 : 1 ≤ count.toNat)
  (h16 : count.toNat ≤ 16) (hb : s.cursor p c = some b)
  (hf : (s.leaseRenewed p).fixVersion p c b = some (s1, b1, v, isCurrent, moved))
include hasks hserves hslot ho h1 h16 hb hf

theorem peekOwner_begins (hrange : offset.toNat + count.toNat ≤ v.length) :
    peekOwner p slot offset count words (s.leaseRenewed p)
      = readOn p words (readJob (.peek offset.toNat) b1 v isCurrent moved count.toNat) s1 := by
  rw [peekOwner_bound (s := s.leaseRenewed p) hasks hserves.2 hslot ho h1 h16 hb hf,
    if_neg (Nat.not_lt.mpr hrange)]

/-- A PEEK alone at the arbiter whose words are sound answers them all (R54, R56). -/
theorem exec_peek_answers (hrange : offset.toNat + count.toNat ≤ v.length) (hwait : s1.waiting = [])
    (hwords : count.toNat ≤ words)
    (hsound : s1.soundAt v.pages (peekOffsets offset.toNat count.toNat)) :
    exec (.peek p slot offset count words) s = .next
      (({ s1 with arbiter := Requestor.next (.portEngine p) } : State).respond p tag
        (replyOk (wordBytes v.number ++ bytesOfWord offset
            ++ (s1.wordsAt v.pages (peekOffsets offset.toNat count.toNat)).flatMap bytesOfWord)
          { stale := (readJob (.peek offset.toNat) b1 v isCurrent moved count.toNat).stale
            rebound := moved, damaged := s1.damagedNow b1.table v.number })) := by
  have howner := peekOwner_begins (words := words) hasks hserves hslot ho h1 h16 hb hf hrange
  rw [readOn_peek_sound (job := readJob (.peek offset.toNat) b1 v isCurrent moved count.toNat) hwords
    rfl hwait h1 hsound, bytesOfWord_ofNat_toNat] at howner
  exact congrArg _ (State.serve_admitted hasks hserves.1 howner)

/-- A PEEK answers as one that stands after its first step (R56). -/
theorem exec_peek_goesOn (hrange : offset.toNat + count.toNat ≤ v.length)
    (hasks1 : s1.asks p (.peek slot offset count) tag) (hadmits1 : s1.admits p)
    (hrenewed : s1.leaseRenewed p = s1) :
    exec (.peek p slot offset count words) s = exec (.peek p slot offset count words)
      (s1.setTurn p
        (.reading (readJob (.peek offset.toNat) b1 v isCurrent moved count.toNat))) := by
  rw [exec_peek, exec_peek]
  exact congrArg _ (State.serve_reads hasks hserves.1
    (peekOwner_begins hasks hserves hslot ho h1 h16 hb hf hrange) hasks1
    (fun _ => Turn.noConfusion) hadmits1 hrenewed
    (peekOwner_reading (State.asksAt_setTurn hasks1 _)))

/-- A PEEK past the length of its version is refused, showing whether the slot moved (R56). -/
theorem exec_peek_range (hrange : v.length < offset.toNat + count.toNat) :
    exec (.peek p slot offset count words) s = .next (s1.respond p tag
      { refuse .range with flags := Flags.byte { rebound := moved } }) := by
  have howner := peekOwner_bound (words := words) (s := s.leaseRenewed p) hasks hserves.2 hslot ho h1
    h16 hb hf
  rw [if_pos hrange] at howner
  exact congrArg _ (State.serve_admitted hasks hserves.1 howner)

end

/-- Settles O28: a PEEK that begins, one that goes on, and one of an unbound slot. -/
theorem peekReturnsTheWords : Obligations.PeekReturnsTheWords := by
  refine ⟨?begins, ?goesOn, ?refused⟩
  case begins =>
    intro p slot offset count tag words c s b v isCurrent hasks hserves hslot ho h1 h16 hb hl hfollow
      offsets granted
    have hnumber := State.lookup_number hl
    have hl' : (s.leaseRenewed p).lookup b.table v.number = some (v, isCurrent) := by
      rw [hnumber]
      exact hl
    have hf : (s.leaseRenewed p).fixVersion p c b
        = some (s.leaseRenewed p, b, v, isCurrent, false) :=
      State.fixVersion_stays (s := s.leaseRenewed p) hb hl hfollow
    have hwaits := s.leaseRenewed_waiting p
    have hjob := readJob_stays (b := b) (v := v) (moved := false) (.peek offset.toNat) count.toNat
      hfollow
    refine ⟨fun hrange hwait hwords hsound => ?_,
      fun before o later hrange hwait hwords hoffsets hsound hx => ?_, fun hrange => ?_,
      fun hrange => exec_peek_range hasks hserves hslot ho h1 h16 hb hf hrange⟩
    · have h := exec_peek_answers hasks hserves hslot ho h1 h16 hb hf hrange (hwaits.trans hwait)
        hwords hsound
      rw [State.damagedNow_of_lookup hl', hjob] at h
      exact h
    · have howner := peekOwner_begins (words := words) hasks hserves hslot ho h1 h16 hb hf hrange
      have hread := readOn_peek_stops (s := s.leaseRenewed p) (p := p)
        (job := readJob (.peek offset.toNat) b v isCurrent false count.toNat) hwords rfl
        (hwaits.trans hwait) hoffsets hsound hx hl'
      rw [hread, hjob, bytesOfWord_ofNat_toNat] at howner
      exact congrArg _ (State.serve_admitted hasks hserves.1 howner)
    · have h := exec_peek_goesOn (words := words) hasks hserves hslot ho h1 h16 hb hf hrange hasks
        (State.admits_leaseRenewed hserves.1) (s.leaseRenewed_leaseRenewed p)
      rwa [hjob] at h
  case goesOn =>
    intro p slot offset count tag words start s job v isCurrent hasks hserves hwalk hleft hl o word
      next granted
    have howner : peekOwner p slot offset count words (s.leaseRenewed p)
        = readOn p words job (s.leaseRenewed p) := peekOwner_reading hasks
    have hgrants : (s.leaseRenewed p).grants (.portEngine p) = s.grants (.portEngine p) :=
      State.leaseRenewed_grants ..
    have hoffset : (s.leaseRenewed p).nextOffset p job = some o := State.nextOffset_peek hwalk
    refine ⟨fun h => ?_, fun hw hg hx => ?_, fun hw hg hx => ?_⟩
    · rw [readOn_waiting hleft hoffset (h.imp_right hgrants.trans),
        State.setTurn_stay (s := s.leaseRenewed p) hasks] at howner
      exact congrArg _ (State.serve_waits hasks hserves.1 howner)
    · have htook : peekOwner p slot offset count words (s.leaseRenewed p)
          = readOn p (words - 1) next granted := by
        rw [howner, readOn_took hw hleft hoffset (hgrants.trans hg) hx, State.stepSlot_peek hwalk]
        rfl
      refine ⟨fun hmore => ⟨fun hstops => ?_, fun _ => ?_⟩, fun hlast => ?_⟩
      · have hwaits : words - 1 = 0 ∨ granted.grants (.portEngine p) = false := by
          refine hstops.imp (fun h => by rw [h]) fun ⟨q, hq, hqw⟩ => ?_
          exact State.not_grants_again (q := q) rfl hq ((State.leaseRenewed_waits s p q).trans hqw)
        rw [readOn_waiting (Nat.le_sub_of_add_le hmore)
          (State.nextOffset_peek (job := next) hwalk) hwaits] at htook
        exact congrArg _ (State.serve_waits hasks hserves.1 htook)
      · rw [exec_peek, exec_peek]
        have hasks' : granted.asksAt p (.peek slot offset count) tag (.reading job) := hasks
        exact congrArg _ (State.serve_reads hasks hserves.1 htook hasks' (fun _ => Turn.noConfusion)
          (State.admits_leaseRenewed hserves.1)
          (congrArg (fun x : State => ({ x with
            arbiter := Requestor.next (.portEngine p) } : State)) (s.leaseRenewed_leaseRenewed p))
          (peekOwner_reading (State.asksAt_setTurn hasks' _)))
      · have hended : granted.readEnded p next = true := by
          have hnone : next.left = 0 := by show job.left - 1 = 0; rw [hlast]
          rw [State.readEnded, decide_eq_true hnone, Bool.true_or]
        rw [readOn_ended hended, State.readReply_peek (job := next) hwalk,
          State.damagedNow_of_lookup (s := granted) hl] at htook
        exact congrArg _ (State.serve_admitted hasks hserves.1 htook)
    · rw [readOn_parity hw hleft hoffset (hgrants.trans hg) hx, State.readReply_peek hwalk,
        State.damagedNow_parityReport (v := v) (isCurrent := isCurrent) (h := by exact hl)] at howner
      exact congrArg _ (State.serve_admitted hasks hserves.1 howner)
  case refused =>
    intro p slot offset count tag words c s hasks hserves hslot ho h1 h16 hb
    exact congrArg _ (State.serve_admitted hasks hserves.1
      (peekOwner_unbound (s := s.leaseRenewed p) hasks hserves.2 hslot ho h1 h16 hb))

end Sys2Proof.Machine

namespace Sys2Proof.Machine

/-! ## A slot moved to the CURRENT version -/

theorem Mode.rebindOffset_eq (m : Mode) (offset length : Nat) :
    m.rebindOffset offset length
      = if offset < length then offset else if m = .linear then length else 0 := by
  unfold Mode.rebindOffset
  cases m <;> rfl

theorem Binding.moveTo_same {b : Binding} {v : Version} (h : v.number = b.version) :
    b.moveTo v = b := if_pos h

theorem Binding.moveTo_other {b : Binding} {v : Version} (h : v.number ≠ b.version) :
    b.moveTo v = { b with
      version := v.number
      offset := if b.offset < v.length then b.offset
        else if b.mode = .linear then v.length else 0 } := by
  rw [Binding.moveTo, if_neg h, Mode.rebindOffset_eq]

/-- The state that the move of a slot leaves: the CURRENT version pinned, the old one unpinned (R51). -/
def State.slotMoved (s : State) (p : Port) (c : SlotId) (b slotAfter : Binding) (v : Version) : State :=
  ((s.setTable b.table { s.table b.table with current := some v.pin }).unpin b.table
    b.version).setCursor p c (some slotAfter)

/-- An unpin of another version leaves the CURRENT one as it is (R31). -/
theorem TableRecord.unpinned_current_other {r : TableRecord} {n : Nat} {v : Version}
    (hv : r.current = some v) (hn : v.number ≠ n) : (r.unpinned n).current = some v := by
  cases hr : r.retiring with
  | none => simp only [TableRecord.unpinned, hv, hr, if_neg hn]
  | some w =>
    by_cases hw : w.number = n
    · simp only [TableRecord.unpinned, hv, hr, if_neg hn, if_pos hw]
    · simp only [TableRecord.unpinned, hv, hr, if_neg hn, if_neg hw]

section
variable {s : State} {p : Port} {c : SlotId} {b slotAfter : Binding} {v : Version}

theorem State.slotMoved_frame : s.slotMoved p c b slotAfter v
    = { s.withDirectoryOf (s.slotMoved p c b slotAfter v) with
        cursors := (s.slotMoved p c b slotAfter v).cursors } := by
  have h := (s.setTable b.table { s.table b.table with current := some v.pin }).unpin_frame b.table
    b.version
  unfold State.slotMoved
  generalize (s.setTable b.table { s.table b.table with current := some v.pin }).unpin b.table
    b.version = x at h
  rw [h]
  rfl

theorem State.slotMoved_cursor : (s.slotMoved p c b slotAfter v).cursor p c = some slotAfter :=
  State.cursor_setCursor_self ..

theorem State.slotMoved_engines : (s.slotMoved p c b slotAfter v).engines = s.engines :=
  (congrArg State.engines State.slotMoved_frame).trans rfl

theorem State.slotMoved_sessions : (s.slotMoved p c b slotAfter v).sessions = s.sessions :=
  (congrArg State.sessions State.slotMoved_frame).trans rfl

theorem State.slotMoved_part : (s.slotMoved p c b slotAfter v).part = s.part :=
  (congrArg State.part State.slotMoved_frame).trans rfl

theorem State.slotMoved_arbiter : (s.slotMoved p c b slotAfter v).arbiter = s.arbiter :=
  (congrArg State.arbiter State.slotMoved_frame).trans rfl

theorem State.slotMoved_versionWord (pages : List Nat) (o : Nat) :
    (s.slotMoved p c b slotAfter v).versionWord pages o = s.versionWord pages o :=
  (congrArg (fun x : State => x.versionWord pages o) State.slotMoved_frame).trans rfl

theorem State.slotMoved_wordsAt (pages offsets : List Nat) :
    (s.slotMoved p c b slotAfter v).wordsAt pages offsets = s.wordsAt pages offsets :=
  List.map_congr_left fun o _ => congrArg valueOf (State.slotMoved_versionWord pages o)

theorem State.slotMoved_waiting : (s.slotMoved p c b slotAfter v).waiting = s.waiting := by
  refine State.waiting_congr fun q => ?_
  calc (s.slotMoved p c b slotAfter v).waits q
    _ = ((s.setTable b.table { s.table b.table with current := some v.pin }).unpin b.table
          b.version).waits q := by
        unfold State.slotMoved
        exact State.waits_congr (fun _ => rfl) (fun _ => rfl) rfl (fun _ => rfl) rfl q
    _ = (s.setTable b.table { s.table b.table with current := some v.pin }).waits q :=
        State.waits_unpin ..
    _ = s.waits q := State.waits_setTable (by rfl) q

theorem State.slotMoved_lookup (hn : v.number ≠ b.version) :
    (s.slotMoved p c b slotAfter v).lookup b.table v.number = some (v.pin, true) := by
  refine State.lookup_current ?_ rfl
  show (((s.setTable b.table _).unpin b.table b.version).table b.table).current = _
  rw [State.unpin_table_self, State.table_setTable_self]
  exact TableRecord.unpinned_current_other rfl hn

/-- A state whose sessions have the lease just renewed is left by one more renewal. -/
theorem State.leaseRenewed_of_sessions {x : State} (h : x.sessions = (s.leaseRenewed p).sessions) :
    x.leaseRenewed p = x := by
  have hsession : x.session p = (s.leaseRenewed p).session p := congrArg (fun l => l[p]) h
  have hrenewed : ({ x.session p with leaseTimer := some (x.session p).leasePeriod } : Session)
      = x.session p := by
    rw [hsession, State.leaseRenewed_session]
  rw [State.leaseRenewed, hrenewed]
  exact State.setSession_same x p

end

/-! ## RESYNC -/

section
variable {s : State} {p : Port} {slot : Byte} {c : SlotId} {b : Binding} {v : Version}
  (hm : s.part.state ≠ .maintenance) (hslot : slot.toNat = c.val)
include hm hslot

theorem resyncOwner_unbound (hb : s.cursor p c = none) :
    resyncOwner p slot s = refusing s .unbound := by
  simp only [resyncOwner, outsideMaintenance_out _ hm, slotOperand_val hslot, withBound_none _ hb]

variable (hb : s.cursor p c = some b) (hv : (s.table b.table).current = some v)
include hb hv

theorem resyncOwner_stays (hn : v.number = b.version) :
    resyncOwner p slot s = answering s (replyOk (wordBytes v.number ++ wordBytes b.offset)
      { damaged := v.damaged }) := by
  have hrebind : s.rebind b.table b.version = some (v, s) := by
    simp only [State.rebind, hv, if_pos hn]
  simp only [resyncOwner, outsideMaintenance_out _ hm, slotOperand_val hslot, withBound_some _ hb,
    hrebind, Binding.moveTo_same hn, State.setCursor_stay hb, decide_eq_false (not_not.mpr hn)]

theorem resyncOwner_moves (hn : v.number ≠ b.version) :
    resyncOwner p slot s = answering (s.slotMoved p c b (b.moveTo v) v)
      (replyOk (wordBytes v.number ++ wordBytes (b.moveTo v).offset)
        { rebound := true, damaged := v.damaged }) := by
  have hrebind : s.rebind b.table b.version = some (v, (s.setTable b.table
      { s.table b.table with current := some v.pin }).unpin b.table b.version) := by
    simp only [State.rebind, hv, if_neg hn]
  simp only [resyncOwner, outsideMaintenance_out _ hm, slotOperand_val hslot, withBound_some _ hb,
    hrebind, decide_eq_true hn]
  rfl

end

/-- Settles O29: RESYNC of a bound and of an unbound slot, and the reads of a FOLLOW slot that moves. -/
theorem slotsMoveToTheCurrentVersion : Obligations.SlotsMoveToTheCurrentVersion := by
  refine ⟨?resync, ?unbound, ?reads⟩
  case resync =>
    intro p slot tag c s b v hasks hserves hslot hb hv
    refine ⟨fun hn => ?_, fun hn => ?_⟩
    · exact congrArg _ (State.serve_admitted hasks hserves.1
        (resyncOwner_stays (s := s.leaseRenewed p) hserves.2 hslot hb hv hn))
    · intro offset
      have howner := resyncOwner_moves (s := s.leaseRenewed p) hserves.2 hslot hb hv hn
      rw [Binding.moveTo_other hn] at howner
      exact congrArg _ (State.serve_admitted hasks hserves.1 howner)
  case unbound =>
    intro p slot tag c s hasks hserves hslot hb
    exact congrArg _ (State.serve_admitted hasks hserves.1
      (resyncOwner_unbound (s := s.leaseRenewed p) hserves.2 hslot hb))
  case reads =>
    intro p slot tag words c s b v hserves hslot hb hfollow hv hn slotAfter moved fixed
    have hf : (s.leaseRenewed p).fixVersion p c b = some (moved, slotAfter, v, true, true) := by
      rw [State.fixVersion_moves (s := s.leaseRenewed p) hv hfollow hn, Binding.moveTo_other hn]
      rfl
    have hmoved : moved = (s.leaseRenewed p).slotMoved p c b slotAfter v := rfl
    have hwaiting : moved.waiting = s.waiting := by
      rw [hmoved, State.slotMoved_waiting, State.leaseRenewed_waiting]
    have hword (pages : List Nat) (o : Nat) : moved.versionWord pages o = s.versionWord pages o := by
      rw [hmoved, State.slotMoved_versionWord]
      rfl
    have hwords (pages offsets : List Nat) : moved.wordsAt pages offsets = s.wordsAt pages offsets := by
      rw [hmoved, State.slotMoved_wordsAt]
      rfl
    have harbiter : moved.arbiter = s.arbiter := by
      rw [hmoved, State.slotMoved_arbiter]
      rfl
    have hdamaged : moved.damagedNow b.table v.number = v.damaged := by
      rw [hmoved, State.damagedNow_of_lookup (State.slotMoved_lookup hn)]
      rfl
    have hengines : moved.engines = s.engines := by
      rw [hmoved, State.slotMoved_engines]
      rfl
    have hsessions : moved.sessions = (s.leaseRenewed p).sessions := by
      rw [hmoved, State.slotMoved_sessions]
    have hpart : moved.part = s.part := by
      rw [hmoved, State.slotMoved_part]
      rfl
    have hasks (req : Request) (h : s.asks p req tag) : moved.asks p req tag := by
      have hengine : moved.engine p = s.engine p := congrArg (fun l => l[p]) hengines
      rw [State.asks, State.asksAt, hengine]
      exact h
    have hadmits : moved.admits p := by
      have hsession : moved.session p = (s.leaseRenewed p).session p :=
        congrArg (fun l => l[p]) hsessions
      rw [State.admits, hsession, hpart]
      exact State.admits_leaseRenewed hserves.1
    have hrenewed : moved.leaseRenewed p = moved := State.leaseRenewed_of_sessions hsessions
    have hcursor : moved.cursor p c = some slotAfter := State.slotMoved_cursor
    have hfixed (walk : Walk) (n : Nat) :
        fixed walk n = moved.setTurn p (.reading (readJob walk slotAfter v true true n)) := rfl
    clear_value fixed
    clear hmoved
    clear_value moved
    refine ⟨?fetch, ?peek⟩
    case fetch =>
      intro count h h1 h16 offsets after
      refine ⟨fun hwait hcount hsound => ?_, ?_⟩
      · have hexec := exec_fetch_answers h hserves hslot h1 h16 hb hf hcursor
          (hwaiting.trans hwait) hcount fun o ho => by rw [hword]; exact hsound o ho
        rw [hwords, harbiter, hdamaged] at hexec
        exact hexec
      · rw [hfixed]
        exact exec_fetch_goesOn h hserves hslot h1 h16 hb hf (hasks _ h) hadmits hrenewed
    case peek =>
      intro offset count h ho h1 h16 offsets
      refine ⟨fun hrange hwait hcount hsound => ?_, fun hrange => ?_, fun hrange => ?_⟩
      · have hexec := exec_peek_answers h hserves hslot ho h1 h16 hb hf hrange
          (hwaiting.trans hwait) hcount fun o ho => by rw [hword]; exact hsound o ho
        rw [hwords, hdamaged] at hexec
        exact hexec
      · rw [hfixed]
        exact exec_peek_goesOn h hserves hslot ho h1 h16 hb hf hrange (hasks _ h) hadmits hrenewed
      · exact exec_peek_range h hserves hslot ho h1 h16 hb hf hrange

end Sys2Proof.Machine
